-- ==== Sys2Proof/Word.lean ====
section
/-! DEFINITION. Sys2Proof/Word.lean: the widths of the block's registers (rule R22), its host address (rule R70)
and the exact sum of a byte sequence (rule R8). Every value is unsigned (rule R7). -/

namespace Sys2Proof

/-- A byte: every register but six, every buffer entry and every wire byte (rules R22, R73). -/
abbrev Byte := BitVec 8

/-- A 16-bit register: PN, TXN, RXN (rule R22). -/
abbrev Half := BitVec 16

/-- A 32-bit register: SETTLE, TIMEOUT, BAUD and the counter T (rules R22, R56). -/
abbrev Word := BitVec 32

/-- A host bus address, 0x000 to 0xFFF (rule R70). -/
abbrev Addr := BitVec 12

/-- `sum(s)` of rule R8: the exact integer sum of the bytes of `s`. -/
def byteSum : List Byte → Nat
  | [] => 0
  | b :: s => b.toNat + byteSum s

end Sys2Proof
end

