-- ==== Sys2Proof/Config.lean ====
section
/-! DEFINITION. Sys2Proof/Config.lean: the fixed constants and the named parameters of rule R5, the buffer bases of
the memory map (rule R71), and the free values: opaque constants without a body, so that nothing can be proved of a
value that the spec calls UNSPECIFIED (rule R59). -/

namespace Sys2Proof.Config

/-- `HEADER` (rule R5): each of the two header bytes. -/
def headerByte : Byte := 0xFF

/-- `BROADCAST_ID` (rule R5). -/
def broadcastId : Byte := 0xFE

/-- `ID_MAX_INSTR` (rule R5): the largest id of a frame. -/
def idMaxInstr : Byte := 0xFE

/-- `ID_MAX_REPLY` (rule R5): the largest id a status may carry. -/
def idMaxReply : Byte := 0xFD

/-- `PAYLOAD_MAX` (rules R5, R93). -/
def payloadMax : Nat := 254

/-- `FRAME_MIN` (rules R5, R93). -/
def frameMin : Nat := 6

/-- `FRAME_MAX` = `TXB_DEPTH` = `RXB_DEPTH` (rule R5). -/
def frameMax : Nat := 259

/-- Depth of PB, QB and SCANLIST (rules R50 to R52). -/
def byteBufDepth : Nat := 256

/-- Address of PB[0] (rule R71). -/
def pbBase : Nat := 0x100

/-- Address of QB[0] (rule R71). -/
def qbBase : Nat := 0x200

/-- Address of SCANLIST[0] (rule R71). -/
def scanBase : Nat := 0x300

/-- Address of TXB[0] (rule R71). -/
def txbBase : Nat := 0x400

/-- Address of RXB[0] (rule R71). -/
def rxbBase : Nat := 0x600

/-- FREE VALUE (rules R59, R78; log entry 3): the k-th unspecified byte of a run. -/
opaque freeByte : Nat → BitVec 8

/-- FREE VALUE (rule R234; log entry 3): the k-th unspecified 16-bit value of a run. -/
opaque freeHalf : Nat → BitVec 16

/-- FREE VALUE (rules R29, R234; log entry 3): the k-th unspecified bit of a run. -/
opaque freeBit : Nat → Bool

/-- Free values that one clock cycle may use; the draw counter advances by this much in every cycle (log entry 3). -/
def drawsPerCycle : Nat := 1024

/-- Place of the unspecified registers of rule R234 among a cycle's free values (log entry 3). -/
def scanSlot : Nat := 600

/-- Place of a host read's free byte among a cycle's free values (log entry 3). -/
def hostSlot : Nat := 1000

end Sys2Proof.Config

namespace Sys2Proof

/-- The named parameters of rule R5 (`MAX_PARAMS`, the four opcode bytes, `LAT_LOCAL`, `F_CLK`) and the cycle counts
that rule R299 leaves open (item I10 calls them parameters). They are arguments of the machine; no step changes them
(log entry 2). -/
structure Params where
  maxParams      : Nat
  opcRegWrite    : Byte
  opcAction      : Byte
  opcReset       : Byte
  opcSyncWrite   : Byte
  latLocal       : Nat
  fClk           : Nat
  buildCycles    : Nat
  flushCycles    : Nat
  popCycles      : Nat
  parseCycles    : Nat
  scanStepCycles : Nat
deriving DecidableEq, Repr

/-- The spec defaults of rule R5; for `LAT_LOCAL`, `F_CLK` and the open counts, to which the spec gives no default, the
least count and the clock of program P2 (DESIGN CHOICE, log entry 2). -/
def Params.default : Params :=
  { maxParams := 253, opcRegWrite := 0x04, opcAction := 0x05, opcReset := 0x06, opcSyncWrite := 0x83,
    latLocal := 1, fClk := 50000000, buildCycles := 1, flushCycles := 1, popCycles := 1, parseCycles := 1,
    scanStepCycles := 1 }

/-- A settle interval of `ms` milliseconds in cycles, rounded up: the conversion of rule R271. -/
def Params.settleCycles (p : Params) (ms : Nat) : Nat := (ms * p.fClk + 999) / 1000

end Sys2Proof
end

