-- ==== Sys2Proof/Syntax.lean ====
section
/-! DEFINITION. Sys2Proof/Syntax.lean: the instructions (one constructor for each row of spec/opcode_table.json), the seven
protocol opcodes, and the host's bus operations (rules R104, R105, R109). -/

namespace Sys2Proof

/-- The instructions of the block. The first twelve are the host commands of rule R96 (format CMD); the last seven are the
instruction rows of rule R101 (format INSTR_FRAME): the construction of that opcode's packet, which the block runs as BLD
with that opcode in OPC (rules R107, R157; log entry 1). No operand is encoded in a command word (rule R95): operands stand
in registers and buffers (rule R97). -/
inductive Instr where
  /-- CHK, checksum of a byte range (rule R128). -/
  | chk
  /-- ENC, encode a frame (rule R141). -/
  | enc
  /-- DEC, decode a frame (rule R148). -/
  | dec
  /-- BLD, build an instruction packet (rule R157). -/
  | bld
  /-- PST, parse a status packet (rule R162). -/
  | pst
  /-- SEND, one instruction and status exchange (rule R230). -/
  | send
  /-- RDD, read_data (rule R231). -/
  | rdd
  /-- WRD, write_data (rule R232). -/
  | wrd
  /-- PING, the command (rule R233). -/
  | ping
  /-- SCAN (rule R234). -/
  | scan
  /-- OPEN, acquire the channel (rule R194). -/
  | openCh
  /-- CLOSE, release the channel (rule R195). -/
  | closeCh
  /-- PING, the protocol opcode (rule R150). -/
  | insPing
  /-- READ, the protocol opcode (rule R151). -/
  | insRead
  /-- WRITE, the protocol opcode (rule R152). -/
  | insWrite
  /-- REG_WRITE, the protocol opcode (rule R153). -/
  | insRegWrite
  /-- ACTION, the protocol opcode (rule R154). -/
  | insAction
  /-- RESET, the protocol opcode (rule R155). -/
  | insReset
  /-- SYNC_WRITE, the protocol opcode (rule R156). -/
  | insSyncWrite
deriving DecidableEq, Repr

/-- The seven protocol opcodes of rule R100. -/
inductive Opcode where
  | ping | read | write | regWrite | action | reset | syncWrite
deriving DecidableEq, Repr

/-- A host access: one byte at an absolute 12-bit address (rules R10, R109). -/
inductive HostOp where
  /-- `MemWrite(addr, 1, data)`. -/
  | wr (addr : Addr) (data : Byte)
  /-- `MemRead(addr, 1)`. -/
  | rd (addr : Addr)
deriving DecidableEq, Repr

end Sys2Proof
end

