-- ==== Sys2Proof/WellFormed.lean ====
section
/-! DEFINITION. Sys2Proof/WellFormed.lean: the checks that a set of parameters (rules R5, R100), an instruction and a
host-operation word (rule R105) must pass. -/

namespace Sys2Proof

/-- The seven opcode bytes under `p`, in the order of rule R101; PING, READ and WRITE are fixed (rule R5). -/
def Params.opcodeBytes (p : Params) : List Byte :=
  [0x01, 0x02, 0x03, p.opcRegWrite, p.opcAction, p.opcReset, p.opcSyncWrite]

/-- The opcode bytes are pairwise distinct (rule R100), and the reset value 0x00 of OPC is none of them (rules R33, R292;
DEDUCED, log entry 2). -/
abbrev Params.OpcodesOk (p : Params) : Prop := p.opcodeBytes.Nodup ∧ (0 : Byte) ∉ p.opcodeBytes

/-- `MAX_PARAMS` is in its range (rule R5). -/
abbrev Params.MaxOk (p : Params) : Prop := 4 ≤ p.maxParams ∧ p.maxParams ≤ 253

/-- Every cycle count is at least 1 (rules R5, R299). -/
abbrev Params.CyclesOk (p : Params) : Prop :=
  1 ≤ p.latLocal ∧ 1 ≤ p.buildCycles ∧ 1 ≤ p.flushCycles ∧ 1 ≤ p.popCycles ∧ 1 ≤ p.parseCycles ∧ 1 ≤ p.scanStepCycles

/-- The parameters are legal. -/
abbrev Params.Wf (p : Params) : Prop := p.MaxOk ∧ p.OpcodesOk ∧ p.CyclesOk

/-- The opcode that an INSTR_FRAME row stands for. -/
def Instr.opcode? : Instr → Option Opcode
  | .chk | .enc | .dec | .bld | .pst | .send | .rdd | .wrd | .ping | .scan | .openCh | .closeCh => none
  | .insPing => some .ping
  | .insRead => some .read
  | .insWrite => some .write
  | .insRegWrite => some .regWrite
  | .insAction => some .action
  | .insReset => some .reset
  | .insSyncWrite => some .syncWrite

/-- An instruction is well formed under `p`: a command word has no operand to check; an INSTR_FRAME row needs opcode bytes
that tell it from the other six (rule R100). -/
abbrev Instr.Wf (p : Params) (i : Instr) : Prop := i.opcode? = none ∨ p.OpcodesOk

/-- A host-operation word has the zero bits that rule R105 asks for: bits 30:28 and 15:8, and bits 7:0 of a read. -/
abbrev hostWordWf (w : BitVec 32) : Prop :=
  w.extractLsb' 28 3 = 0 ∧ w.extractLsb' 8 8 = 0 ∧ (w.getLsbD 31 = false → w.extractLsb' 0 8 = 0)

end Sys2Proof
end

