-- ==== Sys2Proof/Decode.lean ====
section
/-! DEFINITION. Sys2Proof/Decode.lean: the decoder and the encoder of instruction units (rules R95, R96, R100 to R102) and of
host-operation words (rule R105), and the host notation's pseudo-instructions (rule R106).

An instruction unit is the command byte written to CMD, followed by the byte in OPC. Only BLD (code 0x04) looks at the second
byte: where it is one of the seven opcodes, the unit is that opcode's INSTR_FRAME row (log entry 1). -/

namespace Sys2Proof

/-- Why bytes are no instruction. -/
inductive DecodeError where
  /-- No byte was given. -/
  | noBytes
  /-- The command byte is not a code of rule R96; the machine answers it with BAD_COMMAND (rule R102). -/
  | illegalCommand (code : Byte)
  /-- A host-operation word with a reserved bit set (rule R105). -/
  | reservedBits
  /-- A host-operation word for a read with a data byte (rule R105). -/
  | readWithData
deriving DecidableEq, Repr

/-- The command codes of rule R96. -/
def commandOf (c : Byte) : Option Instr :=
  if c = 0x01 then some .chk
  else if c = 0x02 then some .enc
  else if c = 0x03 then some .dec
  else if c = 0x04 then some .bld
  else if c = 0x05 then some .pst
  else if c = 0x06 then some .send
  else if c = 0x07 then some .rdd
  else if c = 0x08 then some .wrd
  else if c = 0x09 then some .ping
  else if c = 0x0A then some .scan
  else if c = 0x0B then some .openCh
  else if c = 0x0C then some .closeCh
  else none

/-- The byte of an opcode (rules R100, R101). -/
def Params.opcodeByte (p : Params) : Opcode → Byte
  | .ping => 0x01
  | .read => 0x02
  | .write => 0x03
  | .regWrite => p.opcRegWrite
  | .action => p.opcAction
  | .reset => p.opcReset
  | .syncWrite => p.opcSyncWrite

/-- The opcode of a byte: none for an unknown opcode (rule R102). -/
def Params.opcodeOf (p : Params) (b : Byte) : Option Opcode :=
  if b = 0x01 then some .ping
  else if b = 0x02 then some .read
  else if b = 0x03 then some .write
  else if b = p.opcRegWrite then some .regWrite
  else if b = p.opcAction then some .action
  else if b = p.opcReset then some .reset
  else if b = p.opcSyncWrite then some .syncWrite
  else none

/-- `PCOUNT` (rules R101, R150 to R156): the inclusive range of an opcode's parameter count. -/
def Params.pcount (p : Params) : Opcode → Nat × Nat
  | .ping => (0, 0)
  | .read => (2, 2)
  | .write => (2, p.maxParams)
  | .regWrite => (2, p.maxParams)
  | .action => (0, 0)
  | .reset => (0, 0)
  | .syncWrite => (4, p.maxParams)

/-- The INSTR_FRAME row of an opcode. -/
def instrOfOpcode : Opcode → Instr
  | .ping => .insPing
  | .read => .insRead
  | .write => .insWrite
  | .regWrite => .insRegWrite
  | .action => .insAction
  | .reset => .insReset
  | .syncWrite => .insSyncWrite

/-- The instruction of a unit: the command byte and, for BLD, the byte of OPC. -/
def decode (p : Params) : List Byte → Except DecodeError Instr
  | [] => .error .noBytes
  | c :: rest =>
    match commandOf c with
    | none => .error (.illegalCommand c)
    | some i =>
      if i = .bld then
        match rest.head? with
        | none => .ok .bld
        | some o =>
          match p.opcodeOf o with
          | none => .ok .bld
          | some op => .ok (instrOfOpcode op)
      else .ok i

/-- The unit of an instruction: the inverse of `decode`. -/
def encode (p : Params) : Instr → List Byte
  | .chk => [0x01]
  | .enc => [0x02]
  | .dec => [0x03]
  | .bld => [0x04]
  | .pst => [0x05]
  | .send => [0x06]
  | .rdd => [0x07]
  | .wrd => [0x08]
  | .ping => [0x09]
  | .scan => [0x0A]
  | .openCh => [0x0B]
  | .closeCh => [0x0C]
  | .insPing => [0x04, 0x01]
  | .insRead => [0x04, 0x02]
  | .insWrite => [0x04, 0x03]
  | .insRegWrite => [0x04, p.opcRegWrite]
  | .insAction => [0x04, p.opcAction]
  | .insReset => [0x04, p.opcReset]
  | .insSyncWrite => [0x04, p.opcSyncWrite]

/-- The unit that a table word stands for. Bits 7:0 are the command byte, and bits 15:8, where the word has them, the byte of
OPC. The table numbers its INSTR_FRAME rows in the same 8 bits, as frame byte 4, which the block takes from OPC: an 8-bit word
that is no command code but is an opcode is therefore BLD with that byte in OPC. A word of 8 bits holds no byte for OPC, and its
unit has 0x00 there, which is no opcode: the word 0x04 is BLD itself (DESIGN CHOICE, log entry 1). -/
def tableUnit (p : Params) (nbits w : Nat) : Byte × Byte :=
  let c := BitVec.ofNat 8 w
  let o := if nbits ≤ 8 then 0 else BitVec.ofNat 8 (w / 256)
  if nbits ≤ 8 ∧ commandOf c = none ∧ (p.opcodeOf c).isSome then (0x04, c) else (c, o)

/-- The instruction that the decoder reads from a table word, under the spec's default parameters. -/
def decodeTableWord (nbits w : Nat) : Option Instr :=
  let u := tableUnit Params.default nbits w
  match decode Params.default [u.1, u.2] with
  | .ok i => some i
  | .error _ => none

/-- The host-operation word of rule R105. -/
def encodeHostOp : HostOp → BitVec 32
  | .wr a d => 1#1 ++ 0#3 ++ a ++ 0#8 ++ d
  | .rd a => 0#1 ++ 0#3 ++ a ++ 0#8 ++ 0#8

/-- The host operation of a word; a word with a reserved bit set is rejected by name (rule R105). -/
def decodeHostOp (w : BitVec 32) : Except DecodeError HostOp :=
  if w.extractLsb' 28 3 ≠ 0 ∨ w.extractLsb' 8 8 ≠ 0 then .error .reservedBits
  else if w.getLsbD 31 then .ok (.wr (w.extractLsb' 16 12) (w.extractLsb' 0 8))
  else if w.extractLsb' 0 8 ≠ 0 then .error .readWithData
  else .ok (.rd (w.extractLsb' 16 12))

/-- `WR16 <addr>, v` (rule R106); past 0xFFF the address wraps to 0x000 (DESIGN CHOICE, log entry 21). -/
def hostWr16 (a : Addr) (v : Half) : List HostOp :=
  [.wr a (v.extractLsb' 0 8), .wr (a + 1) (v.extractLsb' 8 8)]

/-- `WR32 <addr>, v` (rule R106); past 0xFFF the address wraps to 0x000 (DESIGN CHOICE, log entry 21). -/
def hostWr32 (a : Addr) (v : Word) : List HostOp :=
  [.wr a (v.extractLsb' 0 8), .wr (a + 1) (v.extractLsb' 8 8), .wr (a + 2) (v.extractLsb' 16 8),
    .wr (a + 3) (v.extractLsb' 24 8)]

/-- `WRBUF <addr>, b0 b1 ... bk` (rule R106); past 0xFFF the address wraps to 0x000 (DESIGN CHOICE, log entry 21). -/
def hostWrBuf : Addr → List Byte → List HostOp
  | _, [] => []
  | a, b :: bs => .wr a b :: hostWrBuf (a + 1) bs

/-- `CMD <mnemonic>` (rule R106): the write of a command byte to CMD. -/
def hostCmd (c : Byte) : HostOp := .wr 0x000 c

/-- One poll of `WAITDONE` (rule R106): the host repeats it until bit 1 of the byte read is 1. -/
def hostPoll : HostOp := .rd 0x002

/-- `ACK` (rule R106). -/
def hostAck : HostOp := .wr 0x002 0x02

end Sys2Proof
end

