-- ==== Sys2Proof/Machine/State.lean ====
section
/-! DEFINITION. Sys2Proof/Machine/State.lean: the state of the block and of the modelled system around it (rules R20 to R59),
the outcomes other than a next state, and the machine right after reset (rule R290). -/

namespace Sys2Proof.Machine

/-- The result codes of rule R260. No other value is ever written to RC, so RC holds one of these. -/
inductive ResultCode where
  | ok | noReply
  | csShort | csId | csLength
  | fVoltage | fAngle | fOverheat | fRange | fChecksum | fOverload | fInstruction
  | badOpcode | paramCount | idRange | payloadLong
  | frameShort | badHeader | badLength | badChecksum | badId | badReplyId
  | badCommand | closed
deriving DecidableEq, Repr

/-- The sequencer phases of rule R44: values 9 to 255 of PHASE are never held. -/
inductive Phase where
  | idle | localCmd | flush | tx | settle | snap | reasm | parse | scanStep
deriving DecidableEq, Repr

/-- CTRL (rule R24); bits 7:2 are RAZ/WI and hold nothing. -/
structure Ctrl where
  ie     : Bool
  rxmode : Bool
deriving DecidableEq, Repr

/-- STAT (rules R25 to R29); bits 7:5 are RAZ/WI and hold nothing (rule R30). -/
structure Stat where
  busy   : Bool
  done   : Bool
  opened : Bool
  ovr    : Bool
  pingok : Bool
deriving DecidableEq, Repr

/-- The operand registers, written by the host and never by the block (rule R21; rules R32 to R36, R41, R42, R47 to R49). -/
structure OperandRegs where
  id      : Byte
  opc     : Byte
  pn      : Half
  addr    : Byte
  rlen    : Byte
  scanlo  : Byte
  scanhi  : Byte
  settle  : Word
  timeout : Word
  baud    : Word
deriving DecidableEq, Repr

/-- The result registers (rule R21; rules R37 to R40, R43, R45). -/
structure ResultRegs where
  csum  : Byte
  rid   : Byte
  rerr  : Byte
  qn    : Byte
  scann : Byte
  txn   : Half
deriving DecidableEq, Repr

/-- The checksum unit's hidden registers (rule R55). -/
structure Csu where
  acc : Byte
  cnt : BitVec 9
  b0  : Byte
  b1  : Byte
deriving DecidableEq, Repr

/-- The sequencer's hidden registers (rule R56; what `t` and `i` count, and when they are cleared: log entry 19; when
`scanId` is written: log entry 20). The last three are the model's own (log entry 4): `snap` is the count that
rule R213 samples once, `scanM` the counter m of rule R234, `dly` the cycles already spent in the running step. -/
structure Seq where
  cmd    : Byte
  rxmode : Bool
  t      : Word
  i      : Half
  scanId : Byte
  snap   : Option Half
  scanM  : Byte
  dly    : Nat
deriving DecidableEq, Repr

/-- The UART side of the modelled system (rule R57). -/
structure Line where
  fifo  : List Byte
  txlog : List Byte
deriving DecidableEq, Repr

/-- The block's UART outputs (rule R190) as driven in the cycle that the last edge ended: `opened` is the `u_open` pulse with
the word on `u_baud`, `tx` is `u_tx_valid` with the byte on `u_tx_data`. -/
structure Pins where
  opened  : Option Word
  closed  : Bool
  rxFlush : Bool
  tx      : Option Byte
  rxPop   : Bool
deriving DecidableEq, Repr

/-- No strobe driven. -/
def Pins.quiet : Pins := { opened := none, closed := false, rxFlush := false, tx := none, rxPop := false }

/-- What the outside world does in one clock cycle: the reset input (rule R290), one host access (rule R79), `u_tx_ready`
(rule R192), and the bytes that the environment appends to the receive FIFO (rule R211). -/
structure Inputs where
  rst     : Bool
  host    : Option HostOp
  txReady : Bool
  rx      : List Byte
deriving DecidableEq, Repr

/-- A cycle in which nothing happens outside and the UART takes bytes. -/
def Inputs.quiet : Inputs := { rst := false, host := none, txReady := true, rx := [] }

/-- A cycle past the end of the list of inputs: nothing happens outside, and the UART takes bytes or, after a stall that never
ends, does not (rule R198; DESIGN CHOICE, log entry 5). -/
def Inputs.late (ready : Bool) : Inputs := { Inputs.quiet with txReady := ready }

/-- The state: the registers of rules R23 to R49, the buffers of rules R50 to R54, the hidden state of rules R55 to R57, and
the model's own fields, which come last.

`mem` holds the five buffers at their host addresses, as (address, byte) pairs with rising addresses; an address it does not
list holds an UNSPECIFIED byte (rule R59), and a read of it is a free draw (log entry 3). CMD has no stored value (rule R23).

The model's own fields: `pins` and `rdata`, what the block drove on its UART ports and, for a host read, on the host bus in
the last cycle (log entry 6); `params`, the machine's parameters (log entry 2); `draws`, the counter of free values
(log entry 3); `script`, what the outside world does in the cycles to come, and `lateReady`, `u_tx_ready` in every cycle past
the end of `script`: false is the UART that never takes a byte again (rule R198; log entry 5). -/
structure State where
  ctrl   : Ctrl
  stat   : Stat
  rc     : ResultCode
  regs   : OperandRegs
  res    : ResultRegs
  rxn    : Half
  phase  : Phase
  mem    : List Host.Cell
  csu    : Csu
  seq    : Seq
  line   : Line
  pins   : Pins
  rdata  : Option Byte
  params : Params
  draws  : Nat
  script : List Inputs
  lateReady : Bool
deriving DecidableEq, Repr

/-- Why a step faults. Both reasons are safe (log entry 14): they stand for uses that the spec gives no effect, and no run from reset meets
one (Safety.lean's invariant rules them out). -/
inductive Fault where
  /-- Raised by every command when the sequencer stands in a phase that the command's rule does not name (rule R44). Safe: the
  spec gives the command nothing to do there, and the machine stops. -/
  | wrongPhase
  /-- Raised by SNAPSHOT reception when it would pop an empty receive FIFO: `UartPop()` may be used only when the FIFO is not
  empty (rule R193). Safe: the machine stops where the spec forbids the pop. -/
  | popEmpty
deriving DecidableEq, Repr

/-- Why an instruction has no meaning. -/
inductive Refusal where
  /-- Raised by `exec` for an instruction that has no meaning yet, with its mnemonic. Safe: the machine stops. No arm of `exec`
  uses it: every instruction has its meaning. -/
  | notModelled (mnemonic : String)
deriving DecidableEq, Repr

/-- The checksum unit after a clear or a reset (rules R124, R290). -/
def Csu.zero : Csu := { acc := 0, cnt := 0, b0 := 0, b1 := 0 }

/-- The machine right after reset (rule R290): the block's registers at their reset values, the buffers UNSPECIFIED (nothing
listed), `fifo` and `txlog` empty (rule R57), and `u_close` driven, as it is in the reset cycle. -/
def State.reset : State :=
  { ctrl := { ie := false, rxmode := false },
    stat := { busy := false, done := false, opened := false, ovr := false, pingok := false },
    rc := .ok,
    regs := { id := 0, opc := 0, pn := 0, addr := 0, rlen := 0, scanlo := 0, scanhi := 0xFD, settle := 0, timeout := 0,
              baud := 0 },
    res := { csum := 0, rid := 0, rerr := 0, qn := 0, scann := 0, txn := 0 },
    rxn := 0,
    phase := .idle,
    mem := [],
    csu := Csu.zero,
    seq := { cmd := 0, rxmode := false, t := 0, i := 0, scanId := 0, snap := none, scanM := 0, dly := 0 },
    line := { fifo := [], txlog := [] },
    pins := { Pins.quiet with closed := true },
    rdata := none,
    params := Params.default,
    draws := 0,
    script := [],
    lateReady := true }

end Sys2Proof.Machine
end

