-- ==== Sys2Proof/Machine/Flags.lean ====
section
/-! DEFINITION. Sys2Proof/Machine/Flags.lean: the byte views of the status state, the result codes' values and classes
(rules R260, R261), the fault flags of a status error byte (rules R159 to R161), and the interrupt output (rule R266). -/

namespace Sys2Proof.Machine

/-- Bit `k` of a byte built from a flag. -/
def flagBit (b : Bool) (k : Nat) : Byte := if b then BitVec.ofNat 8 (2 ^ k) else 0

/-- The byte a read of CTRL gives (rule R24). -/
def Ctrl.byte (c : Ctrl) : Byte := flagBit c.ie 0 ||| flagBit c.rxmode 1

/-- The byte a read of STAT gives (rules R25 to R30). -/
def Stat.byte (s : Stat) : Byte :=
  flagBit s.busy 0 ||| flagBit s.done 1 ||| flagBit s.opened 2 ||| flagBit s.ovr 3 ||| flagBit s.pingok 4

/-- The value of PHASE (rule R44). -/
def Phase.code : Phase → Byte
  | .idle => 0
  | .localCmd => 1
  | .flush => 2
  | .tx => 3
  | .settle => 4
  | .snap => 5
  | .reasm => 6
  | .parse => 7
  | .scanStep => 8

/-- The value of RC (rule R260). -/
def ResultCode.code : ResultCode → Byte
  | .ok => 0x00
  | .noReply => 0x01
  | .csShort => 0x10
  | .csId => 0x11
  | .csLength => 0x12
  | .fVoltage => 0x20
  | .fAngle => 0x21
  | .fOverheat => 0x22
  | .fRange => 0x23
  | .fChecksum => 0x24
  | .fOverload => 0x25
  | .fInstruction => 0x26
  | .badOpcode => 0x30
  | .paramCount => 0x31
  | .idRange => 0x32
  | .payloadLong => 0x33
  | .frameShort => 0x40
  | .badHeader => 0x41
  | .badLength => 0x42
  | .badChecksum => 0x43
  | .badId => 0x44
  | .badReplyId => 0x45
  | .badCommand => 0x50
  | .closed => 0x51

/-- The classes of rule R261. -/
inductive ResultClass where
  | success | absence | checksumInput | deviceFault | construction | malformed | host
deriving DecidableEq, Repr

/-- The class of a result code (rules R260, R261). -/
def ResultCode.cls : ResultCode → ResultClass
  | .ok => .success
  | .noReply => .absence
  | .csShort | .csId | .csLength => .checksumInput
  | .fVoltage | .fAngle | .fOverheat | .fRange | .fChecksum | .fOverload | .fInstruction => .deviceFault
  | .badOpcode | .paramCount | .idRange | .payloadLong => .construction
  | .frameShort | .badHeader | .badLength | .badChecksum | .badId | .badReplyId => .malformed
  | .badCommand | .closed => .host

/-- The result of a status error byte: the set flag of the highest bit among 6 to 0 (rules R159, R160), and `ok` where none of
them is set, whatever bit 7 is (rule R161). -/
def statusCode (e : Byte) : ResultCode :=
  if e.getLsbD 6 then .fInstruction
  else if e.getLsbD 5 then .fOverload
  else if e.getLsbD 4 then .fChecksum
  else if e.getLsbD 3 then .fRange
  else if e.getLsbD 2 then .fOverheat
  else if e.getLsbD 1 then .fAngle
  else if e.getLsbD 0 then .fVoltage
  else .ok

/-- The interrupt output: `irq = STAT.DONE AND CTRL.IE` at every cycle (rule R266). -/
def State.irq (s : State) : Bool := s.stat.done && s.ctrl.ie

end Sys2Proof.Machine
end

