-- ==== Sys2Proof/Machine/Ops.lean ====
section
/-! DEFINITION. Sys2Proof/Machine/Ops.lean: the named operations over the buffers and the registers: the buffer memory, the
updates of one part of the state, the end of a command (rule R262), which is this block's exception entry and return in one,
its acceptance (rule R23), the reset edge (rule R290), and the UART primitives (rules R191 to R193). -/

namespace Sys2Proof.Machine

open Host (Cell)

/-! ## The buffer memory -/

/-- What an address that the memory does not list reads as: no value. Its byte is UNSPECIFIED (rule R59, log entry 3). -/
def Mem.unlisted : Option Byte := none

/-- The byte at an address, where it is specified. -/
def Mem.read : List Cell → Nat → Option Byte
  | [], _ => Mem.unlisted
  | c :: m, a => if c.1 = a then some c.2 else Mem.read m a

/-- Store one byte, keeping the addresses rising. -/
def Mem.write : List Cell → Nat → Byte → List Cell
  | [], a, v => [(a, v)]
  | c :: m, a, v =>
    if a < c.1 then (a, v) :: c :: m
    else if a = c.1 then (a, v) :: m
    else c :: Mem.write m a v

/-- Store a sequence of bytes from an address on. -/
def Mem.writeBytes : List Cell → Nat → List Byte → List Cell
  | m, _, [] => m
  | m, a, v :: vs => Mem.writeBytes (Mem.write m a v) (a + 1) vs

/-- Make `n` entries from `lo` on UNSPECIFIED. -/
def Mem.forget (m : List Cell) (lo n : Nat) : List Cell :=
  m.filter fun c => c.1 < lo || lo + n ≤ c.1

/-- An address of one of the five buffers (rule R71). -/
def bufferAddr (a : Nat) : Bool :=
  (Config.pbBase ≤ a && a < Config.txbBase + Config.frameMax)
    || (Config.rxbBase ≤ a && a < Config.rxbBase + Config.frameMax)

/-- The memory's canonical form: rising addresses, each of them a buffer's. An unlisted address reads as no value, so no entry
can equal what an unlisted address reads as. -/
abbrev Mem.Wf (m : List Cell) : Prop :=
  m.Pairwise (fun c d => c.1 < d.1) ∧ ∀ c ∈ m, bufferAddr c.1 = true

/-! ## Updates of one part of the state -/

/-- Replace CTRL. -/
def State.setCtrl (s : State) (v : Ctrl) : State := { s with ctrl := v }
/-- Replace STAT. -/
def State.setStat (s : State) (v : Stat) : State := { s with stat := v }
/-- Replace RC. -/
def State.setRc (s : State) (v : ResultCode) : State := { s with rc := v }
/-- Replace the operand registers. -/
def State.setRegs (s : State) (v : OperandRegs) : State := { s with regs := v }
/-- Replace the result registers. -/
def State.setRes (s : State) (v : ResultRegs) : State := { s with res := v }
/-- Replace RXN. -/
def State.setRxn (s : State) (v : Half) : State := { s with rxn := v }
/-- Replace PHASE. -/
def State.setPhase (s : State) (v : Phase) : State := { s with phase := v }
/-- Replace the buffers. -/
def State.setMem (s : State) (v : List Cell) : State := { s with mem := v }
/-- Replace the checksum unit's registers. -/
def State.setCsu (s : State) (v : Csu) : State := { s with csu := v }
/-- Replace the sequencer's hidden registers. -/
def State.setSeq (s : State) (v : Seq) : State := { s with seq := v }
/-- Replace the UART side. -/
def State.setLine (s : State) (v : Line) : State := { s with line := v }
/-- Replace the driven UART outputs. -/
def State.setPins (s : State) (v : Pins) : State := { s with pins := v }
/-- Replace the driven read data. -/
def State.setRdata (s : State) (v : Option Byte) : State := { s with rdata := v }

/-! ## Reads of buffers -/

/-- The byte at a buffer address; where it is UNSPECIFIED, the `slot`-th free value of this cycle (rule R59). -/
def State.peek (s : State) (a slot : Nat) : Byte :=
  (Mem.read s.mem a).getD (Config.freeByte (s.draws + slot))

/-- `B[0..n-1]` of the buffer at `base` (rule R9). -/
def State.bytes (s : State) (base n : Nat) : List Byte :=
  (List.range n).map fun k => s.peek (base + k) k

/-! ## The course of a command -/

/-- Command end: `raise Result(code)` and `finish(code)` (rule R262). Nothing is saved and there is no vector: the host is the
handler, and the block returns to IDLE (rules R267, R269). -/
def State.finish (s : State) (code : ResultCode) : State :=
  { s with
    rc := code
    stat := { s.stat with busy := false, done := true }
    phase := .idle
    seq := { s.seq with dly := 0 } }

/-- Acceptance of command `c` (rule R23): BUSY set, DONE cleared, the code and CTRL.RXMODE latched, and the start in LOCAL
(rule R44). -/
def State.accept (s : State) (c : Byte) : State :=
  { s with
    stat := { s.stat with busy := true, done := false }
    phase := .localCmd
    seq := { s.seq with cmd := c, rxmode := s.ctrl.rxmode, dly := 0 } }

/-- `phase <- P`, at the start of a step of that phase. -/
def State.enter (s : State) (p : Phase) : State :=
  { s with phase := p, seq := { s.seq with dly := 0 } }

/-- One cycle of a step that takes `n` cycles (at least one) and acts in its last (rules R262, R299). -/
def State.afterDelay (s : State) (n : Nat) (act : State → State) : State :=
  if s.seq.dly + 1 < n then { s with seq := { s.seq with dly := s.seq.dly + 1 } }
  else act { s with seq := { s.seq with dly := 0 } }

/-- A local command's cycle: it acts and ends in its last cycle, `LAT_LOCAL` cycles after acceptance, in phase LOCAL
(rules R44, R262). -/
def State.localCycle (s : State) (act : State → State) : Host.Outcome State Fault Refusal :=
  match s.phase with
  | .localCmd => .next (s.afterDelay s.params.latLocal act)
  | _ => .fault .wrongPhase

/-! ## The clock cycle around a command -/

/-- What the outside world does in this cycle (log entry 5). -/
def State.now (s : State) : Inputs := s.script.headD (Inputs.late s.lateReady)

/-- The edge with `rst = 1` (rules R290, R291): the block's state takes its reset values and the buffers become UNSPECIFIED;
`fifo` and `txlog` are the UART's and stay, and so do the model's parameters, draws and inputs; `u_close` is driven. A host read
in this cycle gets a free byte. -/
def State.resetEdge (s : State) : State :=
  { State.reset with
    line := s.line
    params := s.params
    draws := s.draws
    script := s.script
    lateReady := s.lateReady
    rdata :=
      match s.now.host with
      | some (.rd _) => some (Config.freeByte (s.draws + Config.hostSlot))
      | _ => none }

/-- The start of a cycle: no strobe driven and no read data yet. -/
def State.beginCycle (s : State) : State := { s with pins := Pins.quiet, rdata := none }

/-- The end of a cycle: the bytes that the environment appends arrive (rule R211; a byte that comes in the cycle of a flush or
of a count sample comes after it, log entry 7), and the cycle's inputs and free values are used up. -/
def State.endCycle (s : State) : State :=
  { s with
    line := { s.line with fifo := s.line.fifo ++ s.now.rx }
    script := s.script.tail
    draws := s.draws + Config.drawsPerCycle }

/-! ## The UART primitives -/

/-- `UartFlush()` (rule R191). -/
def State.uartFlush (s : State) : State :=
  { s with line := { s.line with fifo := [] }, pins := { s.pins with rxFlush := true } }

/-- The cycle in which `UartSend(b)` offers `b`: the byte is handed over if the UART is ready (rule R192). -/
def State.uartSend (s : State) (b : Byte) : State :=
  { s with
    line := { s.line with txlog := if s.now.txReady then s.line.txlog ++ [b] else s.line.txlog }
    pins := { s.pins with tx := some b } }

/-- `UartCount()`: the number of bytes in the receive FIFO, saturated at 0xFFFF (rule R193). -/
def State.uartCount (s : State) : Half := BitVec.ofNat 16 (min s.line.fifo.length 0xFFFF)

/-- `UartPop()` on a FIFO that holds more than nothing: what is left after its first byte is taken (rule R193). -/
def State.uartPop (s : State) : State :=
  { s with line := { s.line with fifo := s.line.fifo.tail }, pins := { s.pins with rxPop := true } }

end Sys2Proof.Machine
end

