-- ==== Sys2Proof/Machine/Operands.lean ====
section
/-! DEFINITION. Sys2Proof/Machine/Operands.lean: operand assembly (rule R97): what each command reads from the operand registers
and the buffers. -/

namespace Sys2Proof.Machine

/-- The input of CHK (rule R97): `PB[0..PN-1]`, of which only entries below 256 exist and are read. -/
def State.chkInput (s : State) : List Byte := s.bytes Config.pbBase (min s.regs.pn.toNat Config.byteBufDepth)

/-- `PB[0..PN-1]` as ENC, BLD, SEND and WRD read it (rule R97). A PN above 254 is refused by each of them before an entry is
used (rules R141, R157, R232), so 255 entries stand for any such PN. -/
def State.pbOperand (s : State) : List Byte := s.bytes Config.pbBase (min s.regs.pn.toNat 255)

/-- The frame `RXB[0..n-1]` of DEC, PST and the status parse, of which only the first 259 bytes are kept
(rules R97, R148, R217). -/
def State.rxFrame (s : State) (n : Nat) : List Byte := s.bytes Config.rxbBase (min n Config.frameMax)

end Sys2Proof.Machine
end

