-- ==== Sys2Proof/Machine/Checksum.lean ====
section
/-! DEFINITION. Sys2Proof/Machine/Checksum.lean: the checksum unit: the checksum as a function (rules R120 to R122), the
streaming accumulator (rules R123 to R126), and the command CHK (rule R128). -/

namespace Sys2Proof.Machine

/-- `Checksum` of an input of `n` bytes whose first bytes are `s`: the checks of rule R120 in the order of rule R121. Rule R128
writes CHK in this form, because it checks PN before it reads an entry that does not exist. -/
def checksumOf (n : Nat) (s : List Byte) : Except ResultCode Byte :=
  if n < 3 then .error .csShort
  else if s.getD 0 0 = 0xFF then .error .csId
  else if (s.getD 1 0).toNat ≠ n - 1 then .error .csLength
  else .ok (~~~ (BitVec.ofNat 8 (byteSum s)))

/-- `Checksum(s)` of rule R120. -/
def checksum (s : List Byte) : Except ResultCode Byte := checksumOf s.length s

/-- One edge with `cs_valid = 1` (rule R125). -/
def Csu.feed (c : Csu) (b : Byte) : Csu :=
  { acc := c.acc + b
    cnt := if c.cnt = 511 then 511 else c.cnt + 1
    b0 := if c.cnt = 0 then b else c.b0
    b1 := if c.cnt = 1 then b else c.b1 }

/-- One edge of the checksum unit with its three inputs: a clear wins over a feed (rules R123 to R125). -/
def Csu.edge (c : Csu) (clear valid : Bool) (b : Byte) : Csu :=
  if clear then Csu.zero else if valid then c.feed b else c

/-- Feed the bytes of `s` in order. -/
def Csu.feeds : Csu → List Byte → Csu
  | c, [] => c
  | c, b :: s => Csu.feeds (c.feed b) s

/-- A clear, then feeds of the bytes of `s` (rule R127). -/
def Csu.stream (s : List Byte) : Csu := Csu.feeds Csu.zero s

/-- `cs_code` (rule R126). -/
def Csu.code (c : Csu) : ResultCode :=
  if c.cnt.toNat < 3 then .csShort
  else if c.b0 = 0xFF then .csId
  else if c.b1.toNat ≠ c.cnt.toNat - 1 then .csLength
  else .ok

/-- `cs_ok` (rule R126). -/
def Csu.isOk (c : Csu) : Bool := c.code = .ok

/-- `cs_sum` (rule R126): always driven, meaningful only when `cs_ok = 1`. -/
def Csu.sum (c : Csu) : Byte := ~~~ c.acc

/-- What CHK does in its last cycle (rule R128). On success the checksum unit has been cleared and fed with the input
(rule R127; log entry 8). -/
def State.chkAct (s : State) : State :=
  match checksumOf s.regs.pn.toNat s.chkInput with
  | .error e => s.finish e
  | .ok c => ((s.setCsu (Csu.stream s.chkInput)).setRes { s.res with csum := c }).finish .ok

/-- CHK (rule R128). -/
def execChk (s : State) : Host.Outcome State Fault Refusal := s.localCycle State.chkAct

end Sys2Proof.Machine
end

