-- ==== Sys2Proof/Machine/Framer.lean ====
section
/-! DEFINITION. Sys2Proof/Machine/Framer.lean: the packet framer: the encoder (rule R140), the decoder (rules R142 to R147), the
instruction builder (rules R149 to R156), the status parser (rules R158 to R163), and the commands ENC, DEC, BLD and PST with
the seven instruction rows. -/

namespace Sys2Proof.Machine

/-! ## Encoder -/

/-- `Encode(id, p)` (rule R140). -/
def encodeFrame (id : Byte) (p : List Byte) : Except ResultCode (List Byte) :=
  if Config.idMaxInstr < id then .error .idRange
  else if Config.payloadMax < p.length then .error .payloadLong
  else
    match checksum (id :: BitVec.ofNat 8 (p.length + 1) :: p) with
    | .error e => .error e
    | .ok c =>
      .ok ([Config.headerByte, Config.headerByte, id, BitVec.ofNat 8 (p.length + 1)] ++ p ++ [c])

/-- Write a built frame: TXB, TXN and CSUM (rules R141, R157, R230). The checksum unit has been fed with id, length and payload
(rule R127; log entry 8). -/
def State.loadFrame (s : State) (f : List Byte) : State :=
  { s with
    mem := Mem.writeBytes s.mem Config.txbBase f
    res := { s.res with csum := f.getLastD 0, txn := BitVec.ofNat 16 f.length }
    csu := Csu.stream (f.dropLast.drop 2) }

/-- End of a local command that builds a frame: the frame is written on success only (rules R141, R157, R263). -/
def State.buildAct (frame : Except ResultCode (List Byte)) (s : State) : State :=
  match frame with
  | .error e => s.finish e
  | .ok f => (s.loadFrame f).finish .ok

/-- ENC (rule R141). -/
def execEnc (s : State) : Host.Outcome State Fault Refusal :=
  s.localCycle (State.buildAct (encodeFrame s.regs.id s.pbOperand))

/-! ## Decoder -/

/-- `Decode` of a sequence of `n` bytes whose first 259 bytes are `f`, in the fixed order of rule R142. The steps before (4)
read positions 0, 1 and 3 and the count only, so a truncated sequence decodes as the whole one (rule R217). -/
def decodeCounted (n : Nat) (f : List Byte) : Except ResultCode (Byte × List Byte) :=
  if n < Config.frameMin then .error .frameShort
  else if f.getD 0 0 ≠ Config.headerByte ∨ f.getD 1 0 ≠ Config.headerByte then .error .badHeader
  else if (f.getD 3 0).toNat ≠ n - 4 then .error .badLength
  else
    match checksum (f.dropLast.drop 2) with
    | .error .csId => .error .badId
    | .error _ => .error .badChecksum
    | .ok c =>
      if c ≠ f.getLastD 0 then .error .badChecksum
      else if Config.idMaxInstr < f.getD 2 0 then .error .badId
      else .ok (f.getD 2 0, f.dropLast.drop 4)

/-- `Decode(f)` (rule R142). -/
def decodeFrame (f : List Byte) : Except ResultCode (Byte × List Byte) := decodeCounted f.length f

/-- The checksum unit after a decode: cleared and fed with `f[2..n-2]` where step (4) is reached (rules R129, R145; log
entry 8). -/
def csuAfterDecode (n : Nat) (f : List Byte) (c : Csu) : Csu :=
  if n < Config.frameMin ∨ f.getD 0 0 ≠ Config.headerByte ∨ f.getD 1 0 ≠ Config.headerByte ∨ (f.getD 3 0).toNat ≠ n - 4
  then c
  else Csu.stream (f.dropLast.drop 2)

/-- Write decoded bytes into QB from index 0 and their count into QN; the entries above are UNSPECIFIED (rule R147). -/
def State.putQb (s : State) (p : List Byte) : State :=
  { s with
    mem := Mem.writeBytes (Mem.forget s.mem Config.qbBase Config.byteBufDepth) Config.qbBase p
    res := { s.res with qn := BitVec.ofNat 8 p.length } }

/-- QB becomes UNSPECIFIED after a malformed packet (rules R147, R263). -/
def State.forgetQb (s : State) : State :=
  s.setMem (Mem.forget s.mem Config.qbBase Config.byteBufDepth)

/-- What DEC does in its last cycle (rule R148). -/
def State.decAct (s : State) : State :=
  let f := s.rxFrame s.rxn.toNat
  let s1 := s.setCsu (csuAfterDecode s.rxn.toNat f s.csu)
  match decodeCounted s.rxn.toNat f with
  | .error e => s1.forgetQb.finish e
  | .ok (id, p) => ((s1.setRes { s1.res with rid := id }).putQb p).finish .ok

/-- DEC (rule R148). -/
def execDec (s : State) : Host.Outcome State Fault Refusal := s.localCycle State.decAct

/-! ## Instruction packet builder -/

/-- `Build(id, opc, params)` (rule R149): unknown opcode, then id, then parameter count. -/
def build (p : Params) (id opc : Byte) (params : List Byte) : Except ResultCode (List Byte) :=
  match p.opcodeOf opc with
  | none => .error .badOpcode
  | some op =>
    if Config.idMaxInstr < id then .error .idRange
    else if params.length < (p.pcount op).1 ∨ (p.pcount op).2 < params.length then .error .paramCount
    else encodeFrame id (opc :: params)

/-- BLD (rule R157). -/
def execBld (s : State) : Host.Outcome State Fault Refusal :=
  s.localCycle (State.buildAct (build s.params s.regs.id s.regs.opc s.pbOperand))

/-- The packet of one opcode, from the operands of BLD but OPC (rules R107, R150 to R157). -/
def State.buildOpcode (s : State) (op : Opcode) : Host.Outcome State Fault Refusal :=
  s.localCycle (State.buildAct (build s.params s.regs.id (s.params.opcodeByte op) s.pbOperand))

/-- Opcode PING (rule R150). -/
def execInsPing (s : State) : Host.Outcome State Fault Refusal := s.buildOpcode .ping

/-- Opcode READ (rule R151). -/
def execInsRead (s : State) : Host.Outcome State Fault Refusal := s.buildOpcode .read

/-- Opcode WRITE (rule R152). -/
def execInsWrite (s : State) : Host.Outcome State Fault Refusal := s.buildOpcode .write

/-- Opcode REG_WRITE (rule R153). -/
def execInsRegWrite (s : State) : Host.Outcome State Fault Refusal := s.buildOpcode .regWrite

/-- Opcode ACTION (rule R154). -/
def execInsAction (s : State) : Host.Outcome State Fault Refusal := s.buildOpcode .action

/-- Opcode RESET (rule R155): an instruction for a device; it does not reset the block. -/
def execInsReset (s : State) : Host.Outcome State Fault Refusal := s.buildOpcode .reset

/-- Opcode SYNC_WRITE (rule R156). -/
def execInsSyncWrite (s : State) : Host.Outcome State Fault Refusal := s.buildOpcode .syncWrite

/-! ## Status packet parser -/

/-- A status that passed every frame check: source id, error byte and parameters (rule R158). -/
structure Status where
  id     : Byte
  err    : Byte
  params : List Byte
deriving DecidableEq, Repr

/-- The outcome of a reception (rules R158, R215, R216): no byte, a malformed packet, or a status, whose error byte says whether
it is `Ok` or a device fault. -/
inductive Reply where
  | noReply
  | malformed (code : ResultCode)
  | status (st : Status)
deriving DecidableEq, Repr

/-- `ParseStatus` of a sequence of `n` bytes whose first 259 bytes are `f` (rule R158). -/
def parseStatus (n : Nat) (f : List Byte) : Reply :=
  match decodeCounted n f with
  | .error e => .malformed e
  | .ok (id, p) =>
    if Config.idMaxReply < id then .malformed .badReplyId
    else .status { id := id, err := p.getD 0 0, params := p.tail }

/-- The result code of a reception (rules R158 to R161, R215). -/
def Reply.code : Reply → ResultCode
  | .noReply => .noReply
  | .malformed c => c
  | .status st => statusCode st.err

/-- RID, RERR, QN and QB of a status, the same for `Ok` and for a device fault (rules R162, R163). -/
def State.putStatus (s : State) (st : Status) : State :=
  (s.setRes { s.res with rid := st.id, rerr := st.err }).putQb st.params

/-- The outputs and the end of PST, and of a channel command that parses a status as PST does
(rules R162, R163, R215, R216). -/
def State.endWithReply (r : Reply) (s : State) : State :=
  match r with
  | .noReply => s.finish .noReply
  | .malformed c => s.forgetQb.finish c
  | .status st => (s.putStatus st).finish (statusCode st.err)

/-- What PST does in its last cycle (rule R162). -/
def State.pstAct (s : State) : State :=
  let f := s.rxFrame s.rxn.toNat
  State.endWithReply (parseStatus s.rxn.toNat f) (s.setCsu (csuAfterDecode s.rxn.toNat f s.csu))

/-- PST (rule R162). -/
def execPst (s : State) : Host.Outcome State Fault Refusal := s.localCycle State.pstAct

end Sys2Proof.Machine
end

