-- ==== Sys2Proof/Machine/Channel.lean ====
section
/-! DEFINITION. Sys2Proof/Machine/Channel.lean: OPEN and CLOSE (rules R194, R195), the transmit sequence (rules R196 to R199), the
two reception modes (rules R210 to R222), and the cycle of a transaction that every channel command shares. -/

namespace Sys2Proof.Machine

/-! ## OPEN and CLOSE -/

/-- What OPEN does in its last cycle (rule R194): `u_baud` is driven from BAUD with the `u_open` pulse. -/
def State.openAct (s : State) : State :=
  if s.stat.opened then s.finish .ok
  else ((s.setPins { s.pins with opened := some s.regs.baud }).setStat { s.stat with opened := true }).finish .ok

/-- OPEN (rule R194). -/
def execOpen (s : State) : Host.Outcome State Fault Refusal := s.localCycle State.openAct

/-- What CLOSE does in its last cycle (rule R195). -/
def State.closeAct (s : State) : State :=
  if s.stat.opened then
    ((s.setPins { s.pins with closed := true }).setStat { s.stat with opened := false }).finish .ok
  else s.finish .ok

/-- CLOSE (rule R195). -/
def execClose (s : State) : Host.Outcome State Fault Refusal := s.localCycle State.closeAct

/-! ## Flush and write -/

/-- The last cycle of the build step of a channel command, in the order of checks of rule R199: the construction checks, then
STAT.OPEN once the frame is written; `fail` ends the command, or in SCAN the ping. -/
def State.launch (frame : Except ResultCode (List Byte)) (fail : ResultCode → State → State) (s : State) : State :=
  match frame with
  | .error e => fail e s
  | .ok f => if s.stat.opened then (s.loadFrame f).enter .flush else fail .closed (s.loadFrame f)

/-- The last cycle of the flush step, and the start of the write (rule R196; log entry 18). The index of the write is I, cleared
here (DESIGN CHOICE, log entry 19). -/
def State.flushAct (s : State) : State :=
  ((s.uartFlush).setSeq { s.seq with i := 0 }).enter .tx

/-- The start of reception, in the cycle after the last byte is handed over (rules R197, R210): REASSEMBLE, or the settle wait
of SNAPSHOT, which 0 leaves out (rule R212; log entry 11). That the loop of REASSEMBLE starts with T and k at 0 is rule R218's;
that I holds k, that the settle wait counts from 0 too, and that the clearing stands in this cycle, is the model's choice
(DESIGN CHOICE, log entry 19). -/
def State.startReception (s : State) : State :=
  let s1 := s.setSeq { s.seq with t := 0, i := 0, snap := none }
  if s.seq.rxmode then s1.enter .reasm
  else if s.regs.settle = 0 then s1.enter .snap
  else s1.enter .settle

/-- A cycle of phase TX (rules R192, R196, R197): `TXB[I]` is offered, and the index moves on when the UART takes it. Where it
does not, the sequencer stays as it is (rule R198). A frame of no byte is never sent (log entry 17); the bytes are offered back
to back (log entry 18); the index is I (DESIGN CHOICE, log entry 19). -/
def State.txCycle (s : State) : State :=
  if s.res.txn.toNat ≤ s.seq.i.toNat then s.startReception
  else
    let s1 := s.uartSend (s.peek (Config.txbBase + s.seq.i.toNat) 0)
    if s.now.txReady then
      if s.seq.i.toNat + 1 < s.res.txn.toNat then s1.setSeq { s.seq with i := s.seq.i + 1 } else s1.startReception
    else s1

/-! ## SNAPSHOT reception -/

/-- A cycle of the settle wait: exactly SETTLE of them, counted with T (rule R212), up from 0 (DESIGN CHOICE, log entry 19). -/
def State.settleCycle (s : State) : State :=
  let s1 := s.setSeq { s.seq with t := s.seq.t + 1 }
  if s.seq.t.toNat + 1 < s.regs.settle.toNat then s1 else s1.enter .snap

/-- Store a received byte at index I (DESIGN CHOICE, log entry 19): the first 259 are kept (rules R213, R218). -/
def State.keepByte (s : State) (b : Byte) : State :=
  if s.seq.i.toNat < Config.frameMax then s.setMem (Mem.write s.mem (Config.rxbBase + s.seq.i.toNat) b) else s

/-- End of reception with `n` bytes received (rules R213, R215, R216, R218): RXN is written; no byte means no reply. -/
def State.endReception (s : State) (n : Half) (fin : Reply → State → State) : State :=
  if n = 0 then fin .noReply (s.setRxn n) else (s.setRxn n).enter .parse

/-- A cycle of phase SNAP (rule R213): the count is sampled in the first; then exactly that many bytes are popped
(log entry 12). The sample clears I, and the pops count with it (DESIGN CHOICE, log entry 19). -/
def State.snapCycle (s : State) (fin : Reply → State → State) : Host.Outcome State Fault Refusal :=
  match s.seq.snap with
  | none =>
    if s.uartCount = 0 then .next (s.endReception 0 fin)
    else .next (s.setSeq { s.seq with snap := some s.uartCount, i := 0, dly := 0 })
  | some n =>
    if s.seq.dly + 1 < s.params.popCycles then .next (s.setSeq { s.seq with dly := s.seq.dly + 1 })
    else
      match s.line.fifo with
      | [] => .fault .popEmpty
      | b :: _ =>
        let s1 := (s.uartPop.keepByte b).setSeq { s.seq with i := s.seq.i + 1, dly := 0 }
        if s.seq.i.toNat + 1 < n.toNat then .next s1 else .next (s1.endReception n fin)

/-! ## REASSEMBLE reception -/

/-- `Complete(k)` (rule R219). The test leaves the checksum unit's hidden registers as they are (DESIGN CHOICE, log entry 8). -/
def State.complete (s : State) (k : Nat) : Bool :=
  decide (k ≤ Config.frameMax) &&
    match decodeFrame (s.bytes Config.rxbBase k) with
    | .ok _ => true
    | .error _ => false

/-- `min(k + 1, 0xFFFF)` (rule R218). -/
def satSucc (k : Half) : Half := if k = 0xFFFF then k else k + 1

/-- One iteration of the reassembly loop, one cycle (rules R218 to R221; log entry 12). k is held in I (DESIGN CHOICE, log
entry 19). -/
def State.reasmCycle (s : State) (fin : Reply → State → State) : State :=
  if s.regs.timeout.toNat ≤ s.seq.t.toNat then s.endReception s.seq.i fin
  else
    match s.line.fifo with
    | [] => s.setSeq { s.seq with t := s.seq.t + 1 }
    | b :: _ =>
      let k := satSucc s.seq.i
      let s1 := (s.uartPop.keepByte b).setSeq { s.seq with i := k }
      if s1.complete k.toNat then s1.endReception k fin
      else s1.setSeq { s1.seq with t := s1.seq.t + 1 }

/-! ## Status parse and the whole transaction -/

/-- The last cycle of the status parse of `RXB[0..RXN-1]` (rule R216). -/
def State.parseAct (fin : Reply → State → State) (s : State) : State :=
  let f := s.rxFrame s.rxn.toNat
  fin (parseStatus s.rxn.toNat f) (s.setCsu (csuAfterDecode s.rxn.toNat f s.csu))

/-- A cycle of a transaction once its frame is launched: flush, write, receive, parse (steps (c) to (e) of
44_transactions.md). `fin` takes the reply and ends the command, or in SCAN the ping. -/
def State.exchangeCycle (fin : Reply → State → State) (s : State) : Host.Outcome State Fault Refusal :=
  match s.phase with
  | .flush => .next (s.afterDelay s.params.flushCycles State.flushAct)
  | .tx => .next s.txCycle
  | .settle => .next s.settleCycle
  | .snap => s.snapCycle fin
  | .reasm => .next (s.reasmCycle fin)
  | .parse => .next (s.afterDelay s.params.parseCycles (State.parseAct fin))
  | .idle | .localCmd | .scanStep => .fault .wrongPhase

/-- A cycle of `Transact` as SEND, RDD, WRD and PING run it (rule R230): the build step in LOCAL, then the exchange. -/
def State.transactCycle (frame : Except ResultCode (List Byte)) (fin : Reply → State → State) (s : State) :
    Host.Outcome State Fault Refusal :=
  match s.phase with
  | .localCmd =>
    .next (s.afterDelay s.params.buildCycles (State.launch frame fun e t => t.finish e))
  | _ => s.exchangeCycle fin

end Sys2Proof.Machine
end

