-- ==== Sys2Proof/Machine/Transactions.lean ====
section
/-! DEFINITION. Sys2Proof/Machine/Transactions.lean: the channel commands SEND, RDD, WRD, PING and SCAN (rules R230 to R238). -/

namespace Sys2Proof.Machine

/-! ## The instruction each command sends (rule R98) -/

/-- SEND sends `(ID, OPC, PB[0..PN-1])`. -/
def State.sendFrame (s : State) : Except ResultCode (List Byte) := build s.params s.regs.id s.regs.opc s.pbOperand

/-- RDD sends `(ID, READ, [ADDR, RLEN])`. -/
def State.rddFrame (s : State) : Except ResultCode (List Byte) :=
  build s.params s.regs.id (s.params.opcodeByte .read) [s.regs.addr, s.regs.rlen]

/-- WRD sends `(ID, WRITE, [ADDR] ++ PB[0..PN-1])`. -/
def State.wrdFrame (s : State) : Except ResultCode (List Byte) :=
  build s.params s.regs.id (s.params.opcodeByte .write) (s.regs.addr :: s.pbOperand)

/-- PING, and each step of SCAN, sends `(id, PING, [])`. -/
def State.pingFrame (s : State) (id : Byte) : Except ResultCode (List Byte) :=
  build s.params id (s.params.opcodeByte .ping) []

/-! ## SEND, RDD, WRD, PING -/

/-- SEND (rule R230). -/
def execSend (s : State) : Host.Outcome State Fault Refusal := s.transactCycle s.sendFrame State.endWithReply

/-- RDD (rule R231): every output and result as SEND. -/
def execRdd (s : State) : Host.Outcome State Fault Refusal := s.transactCycle s.rddFrame State.endWithReply

/-- The end of WRD (rule R232): the reply is discarded, and RC still gets its result. -/
def State.endDiscarding (r : Reply) (s : State) : State := s.finish r.code

/-- WRD (rule R232). -/
def execWrd (s : State) : Host.Outcome State Fault Refusal := s.transactCycle s.wrdFrame State.endDiscarding

/-- Write STAT.PINGOK (rule R29). -/
def State.setPingok (s : State) (b : Bool) : State := s.setStat { s.stat with pingok := b }

/-- A reply is a matching-id status that is no fault (rules R233, R234). -/
def Reply.matchesId (r : Reply) (id : Byte) : Bool :=
  match r with
  | .status st => decide (statusCode st.err = .ok) && decide (st.id = id)
  | _ => false

/-- The end of PING (rule R233): as SEND, with PINGOK. -/
def State.endPing (r : Reply) (s : State) : State := State.endWithReply r (s.setPingok (r.matchesId s.regs.id))

/-- PING (rule R233). PINGOK is cleared from the first cycle of LOCAL on (log entry 13). -/
def execPing (s : State) : Host.Outcome State Fault Refusal :=
  match s.phase with
  | .localCmd => (s.setPingok false).transactCycle (s.pingFrame s.regs.id) State.endPing
  | _ => s.transactCycle (s.pingFrame s.regs.id) State.endPing

/-! ## SCAN -/

/-- The registers that SCAN leaves UNSPECIFIED, as free values (rule R234). -/
def State.scanRes (s : State) : ResultRegs :=
  let k := s.draws + Config.scanSlot
  { csum := Config.freeByte k, rid := Config.freeByte (k + 1), rerr := Config.freeByte (k + 2),
    qn := Config.freeByte (k + 3), scann := s.seq.scanM, txn := Config.freeHalf k }

/-- The buffers after SCAN: TXB, RXB and QB are UNSPECIFIED (rule R234), and so are the entries of SCANLIST at and above SCANN
(item I5; log entry 15). -/
def State.scanMem (s : State) : List Host.Cell :=
  let m1 := Mem.forget s.mem Config.txbBase Config.frameMax
  let m2 := Mem.forget m1 Config.rxbBase Config.frameMax
  let m3 := Mem.forget m2 Config.qbBase Config.byteBufDepth
  Mem.forget m3 (Config.scanBase + s.seq.scanM.toNat) (Config.byteBufDepth - s.seq.scanM.toNat)

/-- The end of SCAN (rule R234): SCANN is written, the listed outputs become UNSPECIFIED, and the result is `OK`. -/
def State.scanFinish (s : State) : State :=
  { s.finish .ok with
    stat := { (s.finish .ok).stat with pingok := Config.freeBit (s.draws + Config.scanSlot) }
    res := s.scanRes
    rxn := Config.freeHalf (s.draws + Config.scanSlot + 1)
    mem := s.scanMem }

/-- On to the next id, or to the end after the last (rule R234). The id is held in scan_id, which moves on here and keeps the last id
after SCAN (DESIGN CHOICE, log entry 20). -/
def State.scanNext (s : State) : State :=
  if s.seq.scanId.toNat < s.regs.scanhi.toNat then
    (s.setSeq { s.seq with scanId := s.seq.scanId + 1 }).enter .scanStep
  else s.scanFinish

/-- Note a responder: `SCANLIST[m] <- id; m <- m + 1` (rule R234). -/
def State.scanRecord (s : State) : State :=
  (s.setMem (Mem.write s.mem (Config.scanBase + s.seq.scanM.toNat) s.seq.scanId)).setSeq
    { s.seq with scanM := s.seq.scanM + 1 }

/-- The outputs of one ping's parse, which SCAN leaves UNSPECIFIED at its end (rules R216, R234). -/
def State.scanOutputs (r : Reply) (s : State) : State :=
  match r with
  | .noReply => s
  | .malformed _ => s.forgetQb
  | .status st => s.putStatus st

/-- The end of one ping of SCAN (rule R234): a matching `OK` makes the id a responder, anything else does not. RC is not
written. -/
def State.scanReply (r : Reply) (s : State) : State :=
  if r.matchesId s.seq.scanId then (State.scanOutputs r s).scanRecord.scanNext else (State.scanOutputs r s).scanNext

/-- The last cycle of SCAN's checks (rule R234). scan_id takes SCANLO here, for an empty range too (DESIGN CHOICE, log entry 20). -/
def State.scanStart (s : State) : State :=
  if Config.idMaxReply < s.regs.scanhi then s.finish .idRange
  else if s.stat.opened = false then s.finish .closed
  else
    let s1 := s.setSeq { s.seq with scanM := 0, scanId := s.regs.scanlo }
    if s.regs.scanhi < s.regs.scanlo then s1.scanFinish else s1.enter .scanStep

/-- The last cycle of SCAN_STEP: the ping of the current id is built and launched (rule R234; log entry 9). -/
def State.scanLaunch (s : State) : State :=
  State.launch (s.pingFrame s.seq.scanId) (fun _ t => t.scanNext) s

/-- SCAN (rule R234). -/
def execScan (s : State) : Host.Outcome State Fault Refusal :=
  match s.phase with
  | .localCmd => .next (s.afterDelay s.params.buildCycles State.scanStart)
  | .scanStep => .next (s.afterDelay s.params.scanStepCycles State.scanLaunch)
  | _ => s.exchangeCycle State.scanReply

end Sys2Proof.Machine
end

