-- ==== Sys2Proof/Machine/Bus.lean ====
section
/-! DEFINITION. Sys2Proof/Machine/Bus.lean: the host register space: its map (rule R71), and what a 1-byte host read or write does
(rules R23, R24, R30, R72 to R79). -/

namespace Sys2Proof.Machine

/-- The five buffers (rules R50 to R54). -/
inductive Buf where
  | pb | qb | scanlist | txb | rxb
deriving DecidableEq, Repr

/-- What stands at a host address: a register (with the byte number of a wide one), a buffer entry, or nothing (rule R71). -/
inductive Loc where
  | cmd | ctrl | stat | rc | id | opc
  | pn (k : Nat)
  | addr | rlen | csum | rid | rerr | qn | scanlo | scanhi | scann | phase
  | txn (k : Nat)
  | rxn (k : Nat)
  | settle (k : Nat)
  | timeout (k : Nat)
  | baud (k : Nat)
  | entry (b : Buf)
  | reserved
deriving DecidableEq, Repr

/-- The map of rule R71. -/
def locate (a : Nat) : Loc :=
  if a < 0x100 then
    if a < 0x010 then
      if a = 0x000 then .cmd
      else if a = 0x001 then .ctrl
      else if a = 0x002 then .stat
      else if a = 0x003 then .rc
      else if a = 0x004 then .id
      else if a = 0x005 then .opc
      else if a < 0x008 then .pn (a - 0x006)
      else if a = 0x008 then .addr
      else if a = 0x009 then .rlen
      else if a = 0x00A then .csum
      else if a = 0x00B then .rid
      else if a = 0x00C then .rerr
      else if a = 0x00D then .qn
      else if a = 0x00E then .scanlo
      else .scanhi
    else if a = 0x010 then .scann
    else if a = 0x011 then .phase
    else if a < 0x014 then .txn (a - 0x012)
    else if a < 0x016 then .rxn (a - 0x014)
    else if a < 0x018 then .reserved
    else if a < 0x01C then .settle (a - 0x018)
    else if a < 0x020 then .timeout (a - 0x01C)
    else if a < 0x024 then .baud (a - 0x020)
    else .reserved
  else if a < 0x200 then .entry .pb
  else if a < 0x300 then .entry .qb
  else if a < 0x400 then .entry .scanlist
  else if a < 0x503 then .entry .txb
  else if a < 0x600 then .reserved
  else if a < 0x703 then .entry .rxb
  else .reserved

/-- Byte `k` of a wide register (rule R74). -/
def byteOf {w : Nat} (v : BitVec w) (k : Nat) : Byte := v.extractLsb' (8 * k) 8

/-- A wide register with byte `k` replaced (rule R74). -/
def withByte {w : Nat} (v : BitVec w) (k : Nat) (b : Byte) : BitVec w :=
  (v &&& ~~~ ((BitVec.ofNat w 255) <<< (8 * k))) ||| ((b.setWidth w) <<< (8 * k))

/-- The places that rule R77 locks while a command runs: CMD, and every RW register and buffer entry other than CTRL. -/
def Loc.locked : Loc → Bool
  | .cmd | .id | .opc | .pn _ | .addr | .rlen | .scanlo | .scanhi | .rxn _ | .settle _ | .timeout _ | .baud _ => true
  | .entry .pb | .entry .rxb => true
  | .ctrl | .stat | .rc | .csum | .rid | .rerr | .qn | .scann | .phase | .txn _ | .reserved => false
  | .entry .qb | .entry .scanlist | .entry .txb => false

/-- The places whose read is UNSPECIFIED while a command runs (rule R78). -/
def Loc.hiddenWhileBusy : Loc → Bool
  | .csum | .rid | .rerr | .qn | .scann | .txn _ | .rxn _ => true
  | .entry .qb | .entry .scanlist | .entry .txb | .entry .rxb => true
  | .cmd | .ctrl | .stat | .rc | .id | .opc | .pn _ | .addr | .rlen | .scanlo | .scanhi | .phase | .settle _ | .timeout _
  | .baud _ | .entry .pb | .reserved => false

/-- The byte at a place, as the registers hold it (rules R23 to R54, R72, R74). -/
def State.readLoc (s : State) (a : Nat) : Loc → Byte
  | .cmd => 0
  | .ctrl => s.ctrl.byte
  | .stat => s.stat.byte
  | .rc => s.rc.code
  | .id => s.regs.id
  | .opc => s.regs.opc
  | .pn k => byteOf s.regs.pn k
  | .addr => s.regs.addr
  | .rlen => s.regs.rlen
  | .csum => s.res.csum
  | .rid => s.res.rid
  | .rerr => s.res.rerr
  | .qn => s.res.qn
  | .scanlo => s.regs.scanlo
  | .scanhi => s.regs.scanhi
  | .scann => s.res.scann
  | .phase => s.phase.code
  | .txn k => byteOf s.res.txn k
  | .rxn k => byteOf s.rxn k
  | .settle k => byteOf s.regs.settle k
  | .timeout k => byteOf s.regs.timeout k
  | .baud k => byteOf s.regs.baud k
  | .entry _ => s.peek a Config.hostSlot
  | .reserved => 0

/-- `MemRead(addr, 1)`: the byte the block drives (rules R76, R78). -/
def State.busRead (s : State) (a : Addr) : Byte :=
  if s.stat.busy && (locate a.toNat).hiddenWhileBusy then Config.freeByte (s.draws + Config.hostSlot)
  else s.readLoc a.toNat (locate a.toNat)

/-- A write to a place that takes it: the command port, CTRL, the W1C bits of STAT, an RW register or an RW buffer entry; any
other place ignores it (rules R23, R24, R30, R72, R76). -/
def State.writeLoc (s : State) (a : Nat) (d : Byte) : Loc → State
  | .cmd => s.accept d
  | .ctrl => s.setCtrl { ie := d.getLsbD 0, rxmode := d.getLsbD 1 }
  | .stat => s.setStat { s.stat with done := s.stat.done && !d.getLsbD 1, ovr := s.stat.ovr && !d.getLsbD 3 }
  | .id => s.setRegs { s.regs with id := d }
  | .opc => s.setRegs { s.regs with opc := d }
  | .pn k => s.setRegs { s.regs with pn := withByte s.regs.pn k d }
  | .addr => s.setRegs { s.regs with addr := d }
  | .rlen => s.setRegs { s.regs with rlen := d }
  | .scanlo => s.setRegs { s.regs with scanlo := d }
  | .scanhi => s.setRegs { s.regs with scanhi := d }
  | .rxn k => s.setRxn (withByte s.rxn k d)
  | .settle k => s.setRegs { s.regs with settle := withByte s.regs.settle k d }
  | .timeout k => s.setRegs { s.regs with timeout := withByte s.regs.timeout k d }
  | .baud k => s.setRegs { s.regs with baud := withByte s.regs.baud k d }
  | .entry .pb | .entry .rxb => s.setMem (Mem.write s.mem a d)
  | .rc | .csum | .rid | .rerr | .qn | .scann | .phase | .txn _ | .reserved => s
  | .entry .qb | .entry .scanlist | .entry .txb => s

/-- `MemWrite(addr, 1, d)`: a locked place drops the write while BUSY = 1 and sets OVR (rules R28, R77, R265). -/
def State.busWrite (s : State) (a : Addr) (d : Byte) : State :=
  if s.stat.busy && (locate a.toNat).locked then s.setStat { s.stat with ovr := true }
  else s.writeLoc a.toNat d (locate a.toNat)

/-- The host access of this cycle, if there is one (rule R79). -/
def State.hostAccess (s : State) : State :=
  match s.now.host with
  | none => s
  | some (.rd a) => s.setRdata (some (s.busRead a))
  | some (.wr a d) => s.busWrite a d

/-- The state a running command sees in a cycle: no strobe driven yet, and the cycle's host access made. The host access reads
the state before the edge; while BUSY = 1 it reaches only CTRL, STAT.DONE, STAT.OVR and the read data (rules R77, R78), so its
order in the cycle shows only where an acknowledge meets a command end, and there the end wins (log entry 10). -/
def State.front (s : State) : State := s.beginCycle.hostAccess

/-- The instruction unit that a running command is decoded from: the latched command code and OPC (rules R23, R56). -/
def State.fetch (s : State) : List Byte := [s.seq.cmd, s.regs.opc]

/-- A cycle of an illegal command: `BAD_COMMAND` after `LAT_LOCAL` cycles, and no other effect (rules R102, R262). -/
def State.illegalCycle (s : State) : Host.Outcome State Fault Refusal := s.localCycle fun t => t.finish .badCommand

/-- Apply the end of a cycle to a next state. -/
def onNext (f : State → State) : Host.Outcome State Fault Refusal → Host.Outcome State Fault Refusal
  | .next s => .next (f s)
  | .fault r => .fault r
  | .refused r => .refused r

/-- The state in which the very next step runs the unit of a table word as the first cycle of its command: the command is
accepted (BUSY set, DONE cleared, the code latched, phase LOCAL; rule R23), OPC holds the second byte where the unit has BLD's
code, and the cycle to come is not a reset cycle. A host's write of 0x04 to CMD leaves OPC as it was (rule R95); this placing
writes OPC too, 0x00 for a word of 8 bits, so that the unit is the word's whatever OPC held (DESIGN CHOICE, log entry 1). -/
def State.withUnit (s : State) (u : Byte × Byte) : State :=
  let s1 := s.accept u.1
  let s2 := if u.1 = 0x04 then s1.setRegs { s1.regs with opc := u.2 } else s1
  { s2 with
    script :=
      match s.script with
      | [] => []
      | x :: xs => { x with rst := false } :: xs }

end Sys2Proof.Machine
end

