-- ==== Sys2Proof/Machine/Dispatch.lean ====
section
/-! DEFINITION. Sys2Proof/Machine/Dispatch.lean: one arm for each instruction. `exec i s` is one clock cycle of instruction i. -/

namespace Sys2Proof.Machine

def exec (i : Instr) (s : State) : Host.Outcome State Fault Refusal :=
  match i with
  | .chk => Sys2Proof.Machine.execChk s
  | .enc => Sys2Proof.Machine.execEnc s
  | .dec => Sys2Proof.Machine.execDec s
  | .bld => Sys2Proof.Machine.execBld s
  | .pst => Sys2Proof.Machine.execPst s
  | .send => Sys2Proof.Machine.execSend s
  | .rdd => Sys2Proof.Machine.execRdd s
  | .wrd => Sys2Proof.Machine.execWrd s
  | .ping => Sys2Proof.Machine.execPing s
  | .scan => Sys2Proof.Machine.execScan s
  | .openCh => Sys2Proof.Machine.execOpen s
  | .closeCh => Sys2Proof.Machine.execClose s
  | .insPing => Sys2Proof.Machine.execInsPing s
  | .insRead => Sys2Proof.Machine.execInsRead s
  | .insWrite => Sys2Proof.Machine.execInsWrite s
  | .insRegWrite => Sys2Proof.Machine.execInsRegWrite s
  | .insAction => Sys2Proof.Machine.execInsAction s
  | .insReset => Sys2Proof.Machine.execInsReset s
  | .insSyncWrite => Sys2Proof.Machine.execInsSyncWrite s

end Sys2Proof.Machine
end

