-- ==== Sys2Proof/Machine/Step.lean ====
section
/-! DEFINITION. Sys2Proof/Machine/Step.lean: one clock edge of the modelled system (rules R20, R290), and the placing of a table
word where the next step runs it. -/

namespace Sys2Proof.Machine

/-- The running command's cycle: the instruction of the fetched unit, or an illegal command (rule R102). -/
def runCommand (unit : List Byte) (s : State) : Host.Outcome State Fault Refusal :=
  match decode s.params unit with
  | .ok i => exec i s
  | .error _ => s.illegalCycle

/-- One rising edge of `clk`: the reset edge; else the cycle of the running command, with the host's access; else, in IDLE, the
host's access alone. The environment's bytes arrive at the end of the cycle. -/
def step (s : State) : Host.Outcome State Fault Refusal :=
  if s.now.rst then .next s.resetEdge.endCycle
  else if s.stat.busy then onNext State.endCycle (runCommand s.fetch s.front)
  else .next s.front.endCycle

/-- `s` with a table word placed where the next step runs it. -/
def State.withFetchWord (s : State) (nbits w : Nat) : State := s.withUnit (tableUnit s.params nbits w)

end Sys2Proof.Machine
end

