-- ==== Sys2Proof/Safety.lean ====
section
/-! DEFINITION. Sys2Proof/Safety.lean: the terms in which the claims are stated: the wire layout of a frame (rule R91), the frames of
memory and of a command's last cycle, the runs without a reset, and the invariant that every step keeps. -/

namespace Sys2Proof

/-- The local instructions: the local commands of rule R96 and the instruction rows that BLD runs. -/
def Instr.isLocal : Instr → Bool
  | .send | .rdd | .wrd | .ping | .scan => false
  | .chk | .enc | .dec | .bld | .pst | .openCh | .closeCh => true
  | .insPing | .insRead | .insWrite | .insRegWrite | .insAction | .insReset | .insSyncWrite => true

end Sys2Proof

namespace Sys2Proof.Machine

/-! ## Wire frames -/

/-- The frame of the table of rule R91, position by position: header, id, length, payload, checksum. -/
def frameLayout (id : Byte) (p : List Byte) : List Byte :=
  [0xFF, 0xFF, id, BitVec.ofNat 8 (p.length + 1)] ++ p
    ++ [~~~ (BitVec.ofNat 8 (id.toNat + (p.length + 1) + byteSum p))]

/-- The highest set bit among bits 6 to 0 of a status error byte (rule R160). -/
def highestFlag (e : Byte) : Option Nat := [6, 5, 4, 3, 2, 1, 0].find? fun b => e.getLsbD b

/-! ## Frames of memory -/

/-- `t`'s buffers hold `bs` from `base` on and read as `s`'s everywhere else. -/
def storesAt (s t : State) (base : Nat) (bs : List Byte) : Prop :=
  ∀ a, Mem.read t.mem a = if base ≤ a ∧ a < base + bs.length then bs[a - base]? else Mem.read s.mem a

/-- `t`'s QB holds `bs` from index 0 on, its other entries are UNSPECIFIED, and every address outside QB reads as in `s`
(rule R147). -/
def holdsQb (s t : State) (bs : List Byte) : Prop :=
  ∀ a, Mem.read t.mem a =
    if Config.qbBase ≤ a ∧ a < Config.qbBase + 256 then bs[a - Config.qbBase]? else Mem.read s.mem a

/-! ## Cycles at which a command acts -/

/-- The local instruction stands in its last cycle: LOCAL, and `LAT_LOCAL` cycles after acceptance (rule R262). -/
def State.atLocalEnd (s : State) : Prop := s.phase = .localCmd ∧ s.params.latLocal ≤ s.seq.dly + 1

/-- The channel command stands in the last cycle of its build step (rule R299). -/
def State.atBuildEnd (s : State) : Prop := s.phase = .localCmd ∧ s.params.buildCycles ≤ s.seq.dly + 1

/-- The channel command stands in the last cycle of its status parse (rule R299). -/
def State.atParseEnd (s : State) : Prop := s.phase = .parse ∧ s.params.parseCycles ≤ s.seq.dly + 1

/-- The channel commands (rule R96). -/
def channelInstrs : List Instr := [.send, .rdd, .wrd, .ping, .scan]

/-- The channel commands that end with one reply (rules R230 to R233). -/
def replyInstrs : List Instr := [.send, .rdd, .wrd, .ping]

/-- The end with a code, with STAT.PINGOK written where the command is PING (rules R29, R233, R262). -/
def State.endsAs (s : State) (i : Instr) (pingok : Bool) (code : ResultCode) : State :=
  if i = .ping then (s.setStat { s.stat with pingok := pingok }).finish code else s.finish code

/-! ## The host register space -/

/-- The byte at each host address from 0x000 to 0x023, in order (rules R71, R72, R74): wide registers with bits 7:0 first. -/
def registerFile (s : State) : List Byte :=
  let b (n k : Nat) : Byte := BitVec.ofNat 8 (n / 256 ^ k)
  [0, s.ctrl.byte, s.stat.byte, s.rc.code, s.regs.id, s.regs.opc, b s.regs.pn.toNat 0, b s.regs.pn.toNat 1,
    s.regs.addr, s.regs.rlen, s.res.csum, s.res.rid, s.res.rerr, s.res.qn, s.regs.scanlo, s.regs.scanhi,
    s.res.scann, s.phase.code, b s.res.txn.toNat 0, b s.res.txn.toNat 1, b s.rxn.toNat 0, b s.rxn.toNat 1, 0, 0,
    b s.regs.settle.toNat 0, b s.regs.settle.toNat 1, b s.regs.settle.toNat 2, b s.regs.settle.toNat 3,
    b s.regs.timeout.toNat 0, b s.regs.timeout.toNat 1, b s.regs.timeout.toNat 2, b s.regs.timeout.toNat 3,
    b s.regs.baud.toNat 0, b s.regs.baud.toNat 1, b s.regs.baud.toNat 2, b s.regs.baud.toNat 3]

/-- The addresses that rule R77 lists. -/
def lockedAddr (a : Nat) : Prop :=
  a = 0x000 ∨ (0x004 ≤ a ∧ a ≤ 0x009) ∨ a = 0x00E ∨ a = 0x00F ∨ a = 0x014 ∨ a = 0x015 ∨ (0x018 ≤ a ∧ a ≤ 0x023) ∨
    (0x100 ≤ a ∧ a ≤ 0x1FF) ∨ (0x600 ≤ a ∧ a ≤ 0x702)

/-- The RW places other than CTRL: what rule R77 lists without the command port (rule R71). -/
def plainRw (a : Nat) : Prop := lockedAddr a ∧ a ≠ 0x000

/-- The addresses whose read rule R78 leaves UNSPECIFIED while BUSY = 1: CSUM, RID, RERR, QN, SCANN, TXN, RXN, QB, SCANLIST, TXB
and RXB. -/
def hiddenAddr (a : Nat) : Prop :=
  (0x00A ≤ a ∧ a ≤ 0x00D) ∨ a = 0x010 ∨ (0x012 ≤ a ∧ a ≤ 0x015) ∨ (0x200 ≤ a ∧ a ≤ 0x502) ∨ (0x600 ≤ a ∧ a ≤ 0x702)

/-- The reserved addresses of rule R71. -/
def reservedAddr (a : Nat) : Prop :=
  a = 0x016 ∨ a = 0x017 ∨ (0x024 ≤ a ∧ a ≤ 0x0FF) ∨ (0x503 ≤ a ∧ a ≤ 0x5FF) ∨ 0x703 ≤ a

/-- The read-only places of rule R71. -/
def readOnlyAddr (a : Nat) : Prop :=
  a = 0x003 ∨ (0x00A ≤ a ∧ a ≤ 0x00D) ∨ (0x010 ≤ a ∧ a ≤ 0x013) ∨ (0x200 ≤ a ∧ a ≤ 0x502)

/-! ## Runs -/

/-- `n` clock edges. -/
def runN (n : Nat) (s : State) : Host.Outcome State Fault Refusal := Sys2Proof.core.run n s

/-- What the outside world does in the `k`-th cycle to come, counted from 0 (log entry 5). -/
def State.input (s : State) (k : Nat) : Inputs := s.script.getD k (Inputs.late s.lateReady)

/-- No reset edge among the next `n` cycles. -/
def State.noReset (s : State) (n : Nat) : Prop := ∀ k < n, (s.input k).rst = false

/-- The UART takes a byte in each of the next `n` cycles. -/
def State.txReadyFor (s : State) (n : Nat) : Prop := ∀ k < n, (s.input k).txReady = true

/-- The UART takes no byte in any of the next `n` cycles: a TX stall (rule R198). -/
def State.txStalledFor (s : State) (n : Nat) : Prop := ∀ k < n, (s.input k).txReady = false

/-- The bytes that the environment appends in the next `n` cycles (rule R211); past the end of `script` there are none
(log entry 5). -/
def State.arrivals (s : State) (n : Nat) : List Byte := (s.script.take n).flatMap Inputs.rx

/-! ## The invariant -/

/-- The phases in which a frame has been launched. -/
def Phase.exchange : Phase → Bool
  | .flush | .tx | .settle | .snap | .reasm | .parse => true
  | .idle | .localCmd | .scanStep => false

/-- The code of a channel command (rule R96). -/
def channelCode (c : Byte) : Prop := 0x06 ≤ c.toNat ∧ c.toNat ≤ 0x0A

/-- SCAN runs, between its checks and its end. -/
def State.scanning (s : State) : Prop := s.phase = .scanStep ∨ (s.phase.exchange = true ∧ s.seq.cmd = 0x0A)

/-- The first `n` entries of RXB (no more than there are) hold received bytes. -/
def State.received (s : State) (n : Nat) : Prop :=
  ∀ k < min n Config.frameMax, (Mem.read s.mem (Config.rxbBase + k)).isSome = true

/-- What every step keeps: the buffers' canonical form, the handshake bits, and the agreement of the phase with the channel, the
latched command and the sequencer's counters (what T and I count is the model's choice, log entry 19). -/
structure State.Inv (s : State) : Prop where
  /-- The buffers are in canonical form. -/
  memWf : Mem.Wf s.mem
  /-- BUSY and DONE are never both set (rules R23, R262). -/
  notBoth : s.stat.busy = true → s.stat.done = false
  /-- The sequencer is IDLE exactly while BUSY = 0 (rules R25, R44, R262). -/
  idleIff : s.phase = .idle ↔ s.stat.busy = false
  /-- A launched frame belongs to a channel command on an open channel (rules R96, R199). -/
  launched : s.phase.exchange = true → s.stat.opened = true ∧ channelCode s.seq.cmd
  /-- SCAN_STEP is SCAN's alone, on an open channel (rules R44, R234). -/
  scanStep : s.phase = .scanStep → s.stat.opened = true ∧ s.seq.cmd = 0x0A
  /-- TXN is the length of a frame, and TXB holds that many bytes, while a frame is sent (rules R45, R93). -/
  frame : s.phase = .flush ∨ s.phase = .tx → 6 ≤ s.res.txn.toNat ∧ s.res.txn.toNat ≤ 259 ∧
    ∀ k < s.res.txn.toNat, (Mem.read s.mem (Config.txbBase + k)).isSome = true
  /-- The byte index stays inside the frame (rule R196). -/
  txIndex : s.phase = .tx → s.seq.i.toNat < s.res.txn.toNat
  /-- The settle wait belongs to SNAPSHOT and is not over, and no count is sampled yet (rules R210, R212, R213). -/
  settle : s.phase = .settle → s.seq.rxmode = false ∧ s.seq.t.toNat < s.regs.settle.toNat ∧ s.seq.snap = none
  /-- SNAP belongs to SNAPSHOT; every byte still to be popped is in the FIFO, and every byte popped is in RXB
  (rules R193, R210, R213). -/
  snap : s.phase = .snap → s.seq.rxmode = false ∧ ∀ n, s.seq.snap = some n →
    s.seq.i.toNat < n.toNat ∧ n.toNat ≤ s.seq.i.toNat + s.line.fifo.length ∧ s.received s.seq.i.toNat
  /-- REASM belongs to REASSEMBLE; T has not passed TIMEOUT, and every byte popped is in RXB (rules R210, R218, R220). -/
  reasm : s.phase = .reasm → s.seq.rxmode = true ∧ s.seq.t.toNat ≤ s.regs.timeout.toNat ∧ s.received s.seq.i.toNat
  /-- At least one byte was received before a parse, and RXB holds what is parsed (rules R215, R216). -/
  parse : s.phase = .parse → s.rxn ≠ 0 ∧ s.received s.rxn.toNat
  /-- SCAN's cursor stays in its range, and it has counted at most the ids it has passed (rule R234). -/
  scan : s.scanning → s.seq.scanM.toNat + s.regs.scanlo.toNat ≤ s.seq.scanId.toNat ∧
    s.seq.scanId.toNat ≤ s.regs.scanhi.toNat ∧ s.regs.scanhi.toNat ≤ 0xFD
  /-- SCANN is at most 254 (rule R43). -/
  scann : s.res.scann.toNat ≤ 254

end Sys2Proof.Machine
end

