-- ==== Sys2Proof/Certificates/Slice0/Obligations.lean ====
section
/-! DEFINITION. Sys2Proof/Certificates/Slice0/Obligations.lean: the statements for the provers. `exec i s` is one clock cycle of
instruction i; a cycle in which a step of several cycles has not reached its last changes only the count of its cycles
(WaitingCyclesChangeOnlyTheirCount). Where a statement says `csu := t.csu`, it leaves the checksum unit's hidden registers open
(the model's choice, log entry 8). -/

open Sys2Proof Sys2Proof.Machine

/-! ## Encodings -/

/-- Every instruction unit decodes to the instruction it encodes (rules R95, R96, R101; the second byte of a unit is the model's
choice, log entry 1). -/
def Obligations.UnitsDecodeToTheirInstruction : Prop :=
  ∀ (p : Params) (i : Instr), i.Wf p → decode p (encode p i) = .ok i

/-- The twelve command codes of rule R96, and no other, are commands, whatever stands in OPC behind the code; OPC is looked at behind
the code of BLD only (OpcodesOfTheTable; that OPC is the unit's second byte is the model's choice, log entry 1). -/
def Obligations.CommandCodesOfTheTable : Prop :=
  (∀ (p : Params) (c : Byte), (∃ i, decode p [c] = .ok i) ↔ 0x01 ≤ c.toNat ∧ c.toNat ≤ 0x0C) ∧
  (∀ (p : Params) (c o : Byte), (∃ i, decode p [c, o] = .ok i) ↔ 0x01 ≤ c.toNat ∧ c.toNat ≤ 0x0C) ∧
  (∀ (p : Params) (c o : Byte), c ≠ 0x04 → decode p [c, o] = decode p [c]) ∧
  ∀ p : Params,
    decode p [0x01] = .ok .chk ∧ decode p [0x02] = .ok .enc ∧ decode p [0x03] = .ok .dec ∧ decode p [0x04] = .ok .bld ∧
    decode p [0x05] = .ok .pst ∧ decode p [0x06] = .ok .send ∧ decode p [0x07] = .ok .rdd ∧ decode p [0x08] = .ok .wrd ∧
    decode p [0x09] = .ok .ping ∧ decode p [0x0A] = .ok .scan ∧ decode p [0x0B] = .ok .openCh ∧
    decode p [0x0C] = .ok .closeCh ∧
    ∀ o : Byte,
      decode p [0x01, o] = .ok .chk ∧ decode p [0x02, o] = .ok .enc ∧ decode p [0x03, o] = .ok .dec ∧
      decode p [0x05, o] = .ok .pst ∧ decode p [0x06, o] = .ok .send ∧ decode p [0x07, o] = .ok .rdd ∧
      decode p [0x08, o] = .ok .wrd ∧ decode p [0x09, o] = .ok .ping ∧ decode p [0x0A, o] = .ok .scan ∧
      decode p [0x0B, o] = .ok .openCh ∧ decode p [0x0C, o] = .ok .closeCh

/-- The opcode bytes and parameter counts of rule R101, the known opcodes, and what BLD's unit decodes to for each of them and for an
unknown opcode, which is BLD itself (the unit's second byte is the model's choice, log entry 1). -/
def Obligations.OpcodesOfTheTable : Prop :=
  ∀ p : Params, p.OpcodesOk →
    (∀ op : Opcode, p.opcodeOf (p.opcodeByte op) = some op ∧ decode p [0x04, p.opcodeByte op] = .ok (instrOfOpcode op)) ∧
    (∀ b : Byte, p.opcodeOf b = none ↔ b ∉ p.opcodeBytes) ∧
    (∀ b : Byte, b ∉ p.opcodeBytes → decode p [0x04, b] = .ok .bld) ∧
    p.opcodeByte .ping = 0x01 ∧ p.opcodeByte .read = 0x02 ∧ p.opcodeByte .write = 0x03 ∧
    p.opcodeByte .regWrite = p.opcRegWrite ∧ p.opcodeByte .action = p.opcAction ∧ p.opcodeByte .reset = p.opcReset ∧
    p.opcodeByte .syncWrite = p.opcSyncWrite ∧
    p.pcount .ping = (0, 0) ∧ p.pcount .read = (2, 2) ∧ p.pcount .write = (2, p.maxParams) ∧
    p.pcount .regWrite = (2, p.maxParams) ∧ p.pcount .action = (0, 0) ∧ p.pcount .reset = (0, 0) ∧
    p.pcount .syncWrite = (4, p.maxParams)

/-- Host-operation words (rule R105): their layout as numbers, and both directions of the round trip. -/
def Obligations.HostWordsRoundTrip : Prop :=
  (∀ (a : Addr) (d : Byte), (encodeHostOp (.wr a d)).toNat = 2 ^ 31 + a.toNat * 2 ^ 16 + d.toNat) ∧
  (∀ a : Addr, (encodeHostOp (.rd a)).toNat = a.toNat * 2 ^ 16) ∧
  (∀ o : HostOp, decodeHostOp (encodeHostOp o) = .ok o) ∧
  (∀ (w : BitVec 32) (o : HostOp), decodeHostOp w = .ok o → encodeHostOp o = w) ∧
  ∀ w : BitVec 32, (∃ o, decodeHostOp w = .ok o) ↔ hostWordWf w

/-! ## The checksum unit -/

/-- The modular form of rule R122. -/
def Obligations.ChecksumComplementsTheSum : Prop :=
  ∀ (s : List Byte) (c : Byte), checksum s = .ok c →
    c.toNat = 255 - byteSum s % 256 ∧ (byteSum s + c.toNat) % 256 = 255

/-- The streaming accumulator computes the checksum function, for every length of input and from any state before the clear
(rule R127). -/
def Obligations.StreamedChecksumIsTheFunction : Prop :=
  ∀ (u : Csu) (v : Bool) (x : Byte) (s : List Byte),
    let w := s.foldl (fun c b => c.edge false true b) (u.edge true v x)
    (∀ c, checksum s = .ok c → w.isOk = true ∧ w.sum = c) ∧
    (∀ e, checksum s = .error e → w.isOk = false ∧ w.code = e)

/-! ## Frames -/

/-- The round trip of rule R164. -/
def Obligations.EncodedFramesDecodeToTheirPayload : Prop :=
  ∀ (id : Byte) (p : List Byte), id ≠ 0xFF → 1 ≤ p.length → p.length ≤ 254 →
    encodeFrame id p = .ok (frameLayout id p) ∧ decodeFrame (frameLayout id p) = .ok (id, p) ∧
    (id ≠ 0xFE →
      parseStatus (frameLayout id p).length (frameLayout id p) = .status { id := id, err := p.headD 0, params := p.tail })

/-- A sequence that decodes is the frame of its id and payload in the layout of rule R91: the decoder accepts nothing else. -/
def Obligations.DecodeAcceptsOnlyFrames : Prop :=
  ∀ (f : List Byte) (id : Byte) (p : List Byte), decodeFrame f = .ok (id, p) →
    f = frameLayout id p ∧ id ≠ 0xFF ∧ 1 ≤ p.length ∧ p.length ≤ 254

/-- A built packet is the frame of opcode and parameters, decodes to them, and keeps the builder's three conditions; where one
of them fails, the first in the order of rule R149 is the error. -/
def Obligations.BuiltPacketsDecodeToOpcodeAndParameters : Prop :=
  ∀ (p : Params) (id opc : Byte) (params : List Byte), p.MaxOk → p.OpcodesOk →
    (opc ∉ p.opcodeBytes → build p id opc params = .error .badOpcode) ∧
    ∀ op, p.opcodeByte op = opc →
      (id = 0xFF → build p id opc params = .error .idRange) ∧
      (id ≠ 0xFF → (params.length < (p.pcount op).1 ∨ (p.pcount op).2 < params.length) →
        build p id opc params = .error .paramCount) ∧
      (id ≠ 0xFF → (p.pcount op).1 ≤ params.length → params.length ≤ (p.pcount op).2 →
        build p id opc params = .ok (frameLayout id (opc :: params)) ∧
        decodeFrame (frameLayout id (opc :: params)) = .ok (id, opc :: params))

/-- The five steps of the decoder in their order, for every sequence of bytes, the first failing one deciding (rules R142 to R146;
the order of DEC in rule R264): fewer than 6 bytes; a header byte other than 0xFF; a length byte other than the count minus 4;
id 0xFF, whatever the checksum byte; a checksum byte other than the computed one; else id and payload. -/
def Obligations.ChecksumStepRefusesIdFfFirst : Prop :=
  ∀ f : List Byte,
    let c : Byte := ~~~ (BitVec.ofNat 8 (byteSum (f.dropLast.drop 2)))
    (f.length < 6 → decodeFrame f = .error .frameShort) ∧
    (6 ≤ f.length → (f.getD 0 0 ≠ 0xFF ∨ f.getD 1 0 ≠ 0xFF) → decodeFrame f = .error .badHeader) ∧
    (6 ≤ f.length → f.getD 0 0 = 0xFF → f.getD 1 0 = 0xFF →
      ((f.getD 3 0).toNat ≠ f.length - 4 → decodeFrame f = .error .badLength) ∧
      ((f.getD 3 0).toNat = f.length - 4 →
        (f.getD 2 0 = 0xFF → decodeFrame f = .error .badId) ∧
        (f.getD 2 0 ≠ 0xFF → f.getLastD 0 ≠ c → decodeFrame f = .error .badChecksum) ∧
        (f.getD 2 0 ≠ 0xFF → f.getLastD 0 = c → decodeFrame f = .ok (f.getD 2 0, f.dropLast.drop 4))))

/-- Keeping only the first 259 bytes of a sequence changes no result, and a longer sequence fails before its checksum is looked
at (rule R217; it holds at least 6 bytes, so step (1) passes). -/
def Obligations.TruncationLosesNothing : Prop :=
  ∀ f : List Byte, decodeCounted f.length (f.take 259) = decodeFrame f ∧
    parseStatus f.length (f.take 259) = parseStatus f.length f ∧
    (259 < f.length → decodeFrame f = .error .badHeader ∨ decodeFrame f = .error .badLength)

/-- The result of a status error byte is that of its highest set flag among bits 6 to 0 (rules R159, R160), and `OK` where none
of them is set, whatever bit 7 is (rule R161). -/
def Obligations.HighestFlagDecidesTheFault : Prop :=
  ∀ e : Byte, (statusCode e).code = match highestFlag e with
    | some b => 0x20 + BitVec.ofNat 8 b
    | none => 0x00

/-! ## Local commands -/

/-- CHK: its code, and what its last cycle does (rule R128). -/
def Obligations.ChkEndsWithTheChecksum : Prop :=
  (∀ (p : Params) (o : Byte), decode p [0x01, o] = .ok .chk) ∧
  ∀ s : State, s.atLocalEnd →
    let n := s.regs.pn.toNat
    (n < 3 → exec .chk s = .next (s.finish .csShort)) ∧
    (3 ≤ n → s.peek 0x100 0 = 0xFF → exec .chk s = .next (s.finish .csId)) ∧
    (3 ≤ n → s.peek 0x100 0 ≠ 0xFF → (s.peek 0x101 1).toNat ≠ n - 1 → exec .chk s = .next (s.finish .csLength)) ∧
    (3 ≤ n → s.peek 0x100 0 ≠ 0xFF → (s.peek 0x101 1).toNat = n - 1 →
      ∃ t, exec .chk s = .next t ∧
        t = { s.finish .ok with
          res := { s.res with csum := ~~~ (BitVec.ofNat 8 (byteSum (s.bytes 0x100 n))) }
          csu := t.csu })

/-- ENC: its code, and what its last cycle does (rule R141). -/
def Obligations.EncEndsWithTheFrame : Prop :=
  (∀ (p : Params) (o : Byte), decode p [0x02, o] = .ok .enc) ∧
  ∀ s : State, s.atLocalEnd →
    let n := s.regs.pn.toNat
    let f := frameLayout s.regs.id (s.bytes 0x100 n)
    (s.regs.id = 0xFF → exec .enc s = .next (s.finish .idRange)) ∧
    (s.regs.id ≠ 0xFF → 254 < n → exec .enc s = .next (s.finish .payloadLong)) ∧
    (s.regs.id ≠ 0xFF → n = 0 → exec .enc s = .next (s.finish .csShort)) ∧
    (s.regs.id ≠ 0xFF → 1 ≤ n → n ≤ 254 →
      ∃ t, exec .enc s = .next t ∧ storesAt s t 0x400 f ∧
        t = { s.finish .ok with
          res := { s.res with txn := BitVec.ofNat 16 (n + 5), csum := f.getLastD 0 }
          mem := t.mem, csu := t.csu })

/-- DEC: its code, and what its last cycle does (rule R148). The frame is `RXB[0..RXN-1]`, of any length. -/
def Obligations.DecEndsWithThePayload : Prop :=
  (∀ (p : Params) (o : Byte), decode p [0x03, o] = .ok .dec) ∧
  ∀ s : State, s.atLocalEnd →
    let f := s.bytes 0x600 s.rxn.toNat
    (∀ e, decodeFrame f = .error e →
      ∃ t, exec .dec s = .next t ∧ holdsQb s t [] ∧ t = { s.finish e with mem := t.mem, csu := t.csu }) ∧
    (∀ id p, decodeFrame f = .ok (id, p) →
      ∃ t, exec .dec s = .next t ∧ holdsQb s t p ∧
        t = { s.finish .ok with
          res := { s.res with rid := id, qn := BitVec.ofNat 8 p.length }
          mem := t.mem, csu := t.csu })

/-- PST: its code, and what its last cycle does (rules R162, R163). The outputs are written for `OK` and for a device fault alike. -/
def Obligations.PstEndsWithTheStatus : Prop :=
  (∀ (p : Params) (o : Byte), decode p [0x05, o] = .ok .pst) ∧
  ∀ s : State, s.atLocalEnd →
    let f := s.bytes 0x600 s.rxn.toNat
    (∀ e, decodeFrame f = .error e →
      ∃ t, exec .pst s = .next t ∧ holdsQb s t [] ∧ t = { s.finish e with mem := t.mem, csu := t.csu }) ∧
    (∀ p, decodeFrame f = .ok (0xFE, p) →
      ∃ t, exec .pst s = .next t ∧ holdsQb s t [] ∧
        t = { s.finish .badReplyId with mem := t.mem, csu := t.csu }) ∧
    (∀ id p, decodeFrame f = .ok (id, p) → id ≠ 0xFE →
      ∃ t, exec .pst s = .next t ∧ holdsQb s t p.tail ∧
        t = { s.finish (statusCode (p.headD 0)) with
          res := { s.res with rid := id, rerr := p.headD 0, qn := BitVec.ofNat 8 (p.length - 1) }
          mem := t.mem, csu := t.csu })

/-- BLD in its last cycle (rule R157). -/
def Obligations.BldEndsWithThePacket : Prop :=
  ∀ s : State, s.atLocalEnd → s.params.MaxOk → s.params.OpcodesOk →
    let n := s.regs.pn.toNat
    let f := frameLayout s.regs.id (s.regs.opc :: s.bytes 0x100 n)
    (s.regs.opc ∉ s.params.opcodeBytes → exec .bld s = .next (s.finish .badOpcode)) ∧
    ∀ op, s.params.opcodeByte op = s.regs.opc →
      (s.regs.id = 0xFF → exec .bld s = .next (s.finish .idRange)) ∧
      (s.regs.id ≠ 0xFF → (n < (s.params.pcount op).1 ∨ (s.params.pcount op).2 < n) →
        exec .bld s = .next (s.finish .paramCount)) ∧
      (s.regs.id ≠ 0xFF → (s.params.pcount op).1 ≤ n → n ≤ (s.params.pcount op).2 →
        ∃ t, exec .bld s = .next t ∧ storesAt s t 0x400 f ∧
          t = { s.finish .ok with
            res := { s.res with txn := BitVec.ofNat 16 (n + 6), csum := f.getLastD 0 }
            mem := t.mem, csu := t.csu })

/-- The seven instruction rows in their last cycle: each builds the packet of its opcode from ID and PB (rules R101, R149 to
R156), which is what BLD does where OPC holds that opcode (the rows' form is the model's choice, log entry 1). -/
def Obligations.OpcodeRowsBuildTheirPacket : Prop :=
  ∀ (s : State) (op : Opcode), s.params.MaxOk → s.params.OpcodesOk →
    (s.regs.opc = s.params.opcodeByte op → exec (instrOfOpcode op) s = exec .bld s) ∧
    (s.atLocalEnd →
      let n := s.regs.pn.toNat
      let f := frameLayout s.regs.id (s.params.opcodeByte op :: s.bytes 0x100 n)
      (s.regs.id = 0xFF → exec (instrOfOpcode op) s = .next (s.finish .idRange)) ∧
      (s.regs.id ≠ 0xFF → (n < (s.params.pcount op).1 ∨ (s.params.pcount op).2 < n) →
        exec (instrOfOpcode op) s = .next (s.finish .paramCount)) ∧
      (s.regs.id ≠ 0xFF → (s.params.pcount op).1 ≤ n → n ≤ (s.params.pcount op).2 →
        ∃ t, exec (instrOfOpcode op) s = .next t ∧ storesAt s t 0x400 f ∧
          t = { s.finish .ok with
            res := { s.res with txn := BitVec.ofNat 16 (n + 6), csum := f.getLastD 0 }
            mem := t.mem, csu := t.csu }))

/-- OPEN and CLOSE: their codes, and what their last cycle does (rules R194, R195). The strobe is driven only where STAT.OPEN changes. -/
def Obligations.OpenAndCloseSwitchTheChannel : Prop :=
  (∀ (p : Params) (o : Byte), decode p [0x0B, o] = .ok .openCh ∧ decode p [0x0C, o] = .ok .closeCh) ∧
  ∀ s : State, s.atLocalEnd →
    (s.stat.opened = false → exec .openCh s =
      .next { s.finish .ok with
        stat := { s.stat with busy := false, done := true, opened := true }
        pins := { s.pins with opened := some s.regs.baud } }) ∧
    (s.stat.opened = true → exec .openCh s = .next (s.finish .ok)) ∧
    (s.stat.opened = true → exec .closeCh s =
      .next { s.finish .ok with
        stat := { s.stat with busy := false, done := true, opened := false }
        pins := { s.pins with closed := true } }) ∧
    (s.stat.opened = false → exec .closeCh s = .next (s.finish .ok))

/-- What a command end writes (rule R262): RC, BUSY, DONE and the phase, and besides only the model's count of the running step's
cycles. -/
def Obligations.CommandEndWritesResultAndHandshake : Prop :=
  ∀ (s : State) (code : ResultCode), s.finish code =
    { s with
      rc := code
      stat := { busy := false, done := true, opened := s.stat.opened, ovr := s.stat.ovr, pingok := s.stat.pingok }
      phase := .idle
      seq := { s.seq with dly := 0 } }

/-- A local command, and an illegal one, is BUSY with its result code unchanged until it ends, `LAT_LOCAL` cycles after its
acceptance (rules R31, R262, R299), whatever the host and the environment do, short of a reset. The model's choice: DONE is 1
afterwards even where the host acknowledges in the very cycle of the end, because the end wins (log entry 10). -/
def Obligations.LocalCommandsEndAfterLatLocalCycles : Prop :=
  ∀ s : State, s.stat.busy = true → s.phase = .localCmd → s.seq.dly = 0 → 1 ≤ s.params.latLocal →
    s.noReset s.params.latLocal →
    ((∃ i, decode s.params s.fetch = .ok i ∧ i.isLocal = true) ∨ (∃ e, decode s.params s.fetch = .error e)) →
    (∀ k < s.params.latLocal, ∃ t, runN k s = .next t ∧ t.stat.busy = true ∧ t.phase = .localCmd ∧ t.rc = s.rc) ∧
    ∃ t, runN s.params.latLocal s = .next t ∧ t.stat.busy = false ∧ t.stat.done = true ∧ t.phase = .idle

/-! ## Channel commands: the launch -/

/-- SEND in the last cycle of its build step (rules R149, R199, R230). -/
def Obligations.SendBuildsThenChecksTheChannel : Prop :=
  ∀ s : State, s.atBuildEnd → s.params.MaxOk → s.params.OpcodesOk →
    let n := s.regs.pn.toNat
    let f := frameLayout s.regs.id (s.regs.opc :: s.bytes 0x100 n)
    (s.regs.opc ∉ s.params.opcodeBytes → exec .send s = .next (s.finish .badOpcode)) ∧
    ∀ op, s.params.opcodeByte op = s.regs.opc →
      (s.regs.id = 0xFF → exec .send s = .next (s.finish .idRange)) ∧
      (s.regs.id ≠ 0xFF → (n < (s.params.pcount op).1 ∨ (s.params.pcount op).2 < n) →
        exec .send s = .next (s.finish .paramCount)) ∧
      (s.regs.id ≠ 0xFF → (s.params.pcount op).1 ≤ n → n ≤ (s.params.pcount op).2 →
        ∃ t, exec .send s = .next t ∧ storesAt s t 0x400 f ∧
          t = { (if s.stat.opened then s.enter .flush else s.finish .closed) with
            res := { s.res with txn := BitVec.ofNat 16 (n + 6), csum := f.getLastD 0 }
            mem := t.mem, csu := t.csu })

/-- RDD in the last cycle of its build step: it sends `(ID, READ, [ADDR, RLEN])` (rules R98, R199, R231). -/
def Obligations.RddSendsReadOfAddressAndLength : Prop :=
  ∀ s : State, s.atBuildEnd →
    let f := frameLayout s.regs.id [0x02, s.regs.addr, s.regs.rlen]
    (s.regs.id = 0xFF → exec .rdd s = .next (s.finish .idRange)) ∧
    (s.regs.id ≠ 0xFF →
      ∃ t, exec .rdd s = .next t ∧ storesAt s t 0x400 f ∧
        t = { (if s.stat.opened then s.enter .flush else s.finish .closed) with
          res := { s.res with txn := 8, csum := f.getLastD 0 }
          mem := t.mem, csu := t.csu })

/-- WRD in the last cycle of its build step: it sends `(ID, WRITE, [ADDR] ++ PB[0..PN-1])` (rules R98, R199, R232). -/
def Obligations.WrdSendsWriteOfAddressAndData : Prop :=
  ∀ s : State, s.atBuildEnd → s.params.MaxOk →
    let n := s.regs.pn.toNat
    let f := frameLayout s.regs.id (0x03 :: s.regs.addr :: s.bytes 0x100 n)
    (s.regs.id = 0xFF → exec .wrd s = .next (s.finish .idRange)) ∧
    (s.regs.id ≠ 0xFF → (n = 0 ∨ s.params.maxParams < n + 1) → exec .wrd s = .next (s.finish .paramCount)) ∧
    (s.regs.id ≠ 0xFF → 1 ≤ n → n + 1 ≤ s.params.maxParams →
      ∃ t, exec .wrd s = .next t ∧ storesAt s t 0x400 f ∧
        t = { (if s.stat.opened then s.enter .flush else s.finish .closed) with
          res := { s.res with txn := BitVec.ofNat 16 (n + 7), csum := f.getLastD 0 }
          mem := t.mem, csu := t.csu })

/-- PING in the last cycle of its build step: PINGOK is cleared on every path, and it sends `(ID, PING, [])`
(rules R98, R199, R233). -/
def Obligations.PingClearsPingokAndSendsPing : Prop :=
  ∀ s : State, s.atBuildEnd →
    let f := frameLayout s.regs.id [0x01]
    (s.regs.id = 0xFF → exec .ping s = .next (s.endsAs .ping false .idRange)) ∧
    (s.regs.id ≠ 0xFF →
      ∃ t, exec .ping s = .next t ∧ storesAt s t 0x400 f ∧
        t = { (if s.stat.opened then (s.enter .flush).setPingok false else s.endsAs .ping false .closed) with
          res := { s.res with txn := 6, csum := f.getLastD 0 }
          mem := t.mem, csu := t.csu })

/-- SCAN in the last cycle of its checks (rule R234): the range check, the channel check, the first id, or the end of an empty
range, after which the listed outputs are open. The model's choice: scan_id takes SCANLO here, for an empty range too
(log entry 20). -/
def Obligations.ScanChecksItsRangeThenTheChannel : Prop :=
  ∀ s : State, s.atBuildEnd →
    (0xFD < s.regs.scanhi.toNat → exec .scan s = .next (s.finish .idRange)) ∧
    (s.regs.scanhi.toNat ≤ 0xFD → s.stat.opened = false → exec .scan s = .next (s.finish .closed)) ∧
    (s.regs.scanhi.toNat ≤ 0xFD → s.stat.opened = true → s.regs.scanlo.toNat ≤ s.regs.scanhi.toNat →
      exec .scan s =
        .next { s with
          phase := .scanStep
          seq := { s.seq with scanM := 0, scanId := s.regs.scanlo, dly := 0 } }) ∧
    (s.regs.scanhi.toNat ≤ 0xFD → s.stat.opened = true → s.regs.scanhi.toNat < s.regs.scanlo.toNat →
      ∃ t, exec .scan s = .next t ∧
        (∀ a < 0x200, Mem.read t.mem a = Mem.read s.mem a) ∧
        t = { s.finish .ok with
          stat := { s.stat with busy := false, done := true, pingok := t.stat.pingok }
          res := { t.res with scann := 0 }
          rxn := t.rxn, mem := t.mem
          seq := { s.seq with scanM := 0, scanId := s.regs.scanlo, dly := 0 } })

/-- SCAN in the last cycle of SCAN_STEP: the ping of the current id is launched (rules R98, R234). The model's choice: it is built in
SCAN_STEP (log entry 9), and scan_id holds the id (log entry 20). -/
def Obligations.ScanPingsTheCurrentId : Prop :=
  ∀ s : State, s.phase = .scanStep → s.params.scanStepCycles ≤ s.seq.dly + 1 → s.stat.opened = true →
    s.seq.scanId ≠ 0xFF →
    let f := frameLayout s.seq.scanId [0x01]
    ∃ t, exec .scan s = .next t ∧ storesAt s t 0x400 f ∧
      t = { s.enter .flush with
        res := { s.res with txn := 6, csum := f.getLastD 0 }
        mem := t.mem, csu := t.csu }

/-! ## Channel commands: flush and write -/

/-- The flush of every channel command empties the receive FIFO, and the write begins at index 0 (rules R191, R196). The model's
choice: the flush stands in the last cycle of phase FLUSH (log entry 18), and the write's index is I, cleared here
(log entry 19). -/
def Obligations.FlushEmptiesTheReceiveFifo : Prop :=
  ∀ (i : Instr) (s : State), i ∈ channelInstrs → s.phase = .flush → s.params.flushCycles ≤ s.seq.dly + 1 →
    exec i s =
      .next { s with
        line := { s.line with fifo := [] }
        pins := { s.pins with rxFlush := true }
        phase := .tx
        seq := { s.seq with i := 0, dly := 0 } }

/-- A cycle of the write: the byte at the index is offered; where the UART takes it, it is appended to the transmit trace and the
index moves on; where it does not, the sequencer stays as it is (rules R192, R196, R198). Through a stall of n cycles without a
reset the command runs on and nothing of it moves, whatever the host writes and the environment sends; and where the UART never
takes a byte again and no reset comes, the block stays BUSY for ever (rule R198; the end by a reset is
ResetEdgeGivesTheResetState's). The model's choice: every cycle of TX offers a byte, the next one at once after a hand-over
(log entry 18), the index is I (log entry 19), and the UART that never takes a byte again is one field (log entry 5). The last
byte is LastByteStartsReception's. -/
def Obligations.TxOffersBytesInOrder : Prop :=
  (∀ (s : State) (i : Instr), s.stat.busy = true → s.phase = .tx → s.seq.i.toNat < s.res.txn.toNat →
    decode s.params s.fetch = .ok i → i ∈ channelInstrs →
    (∀ n, s.noReset n → s.txStalledFor n →
      ∃ t, runN n s = .next t ∧ t.stat.busy = true ∧ t.phase = .tx ∧ t.seq = s.seq ∧ t.res = s.res ∧ t.regs = s.regs ∧
        t.mem = s.mem ∧ t.rc = s.rc ∧ t.line.txlog = s.line.txlog ∧ t.line.fifo = s.line.fifo ++ s.arrivals n) ∧
    ((∀ x ∈ s.script, x.rst = false ∧ x.txReady = false) → s.lateReady = false →
      ∀ n, ∃ t, runN n s = .next t ∧ t.stat.busy = true ∧ t.phase = .tx)) ∧
  ∀ (i : Instr) (s : State), i ∈ channelInstrs → s.phase = .tx →
    let b := s.peek (0x400 + s.seq.i.toNat) 0
    (s.seq.i.toNat < s.res.txn.toNat → s.now.txReady = false →
      exec i s = .next { s with pins := { s.pins with tx := some b } }) ∧
    (s.seq.i.toNat + 1 < s.res.txn.toNat → s.now.txReady = true →
      exec i s =
        .next { s with
          pins := { s.pins with tx := some b }
          line := { s.line with txlog := s.line.txlog ++ [b] }
          seq := { s.seq with i := s.seq.i + 1 } })

/-- The hand-over of the last byte starts reception in the latched mode, REASSEMBLE or SNAPSHOT (rules R197, R210, R212). The
model's choice: the last byte is offered in this cycle (log entry 18), SETTLE = 0 goes straight to SNAP (log entry 11), and T
and I are cleared here (log entry 19). -/
def Obligations.LastByteStartsReception : Prop :=
  ∀ (i : Instr) (s : State), i ∈ channelInstrs → s.phase = .tx → s.seq.i.toNat + 1 = s.res.txn.toNat →
    s.now.txReady = true →
    let b := s.peek (0x400 + s.seq.i.toNat) 0
    exec i s =
      .next { s with
        pins := { s.pins with tx := some b }
        line := { s.line with txlog := s.line.txlog ++ [b] }
        phase := if s.seq.rxmode then .reasm else if s.regs.settle = 0 then .snap else .settle
        seq := { s.seq with t := 0, i := 0, snap := none, dly := 0 } }

/-- A frame in TXB is handed over whole and in order when the UART takes a byte in every cycle (rules R83, R196, R236). The model's
choice: it takes exactly TXN cycles, one byte each, because the bytes are offered back to back (log entry 18); the index I starts
at 0 (log entry 19); and with SETTLE = 0 the phase after it is SNAP (log entry 11). -/
def Obligations.WriteHandsOverTheWholeFrame : Prop :=
  ∀ (s : State) (i : Instr), s.stat.busy = true → s.phase = .tx → s.seq.i = 0 → 1 ≤ s.res.txn.toNat →
    decode s.params s.fetch = .ok i → i ∈ channelInstrs →
    s.noReset s.res.txn.toNat → s.txReadyFor s.res.txn.toNat →
    (∀ k < s.res.txn.toNat, (Mem.read s.mem (0x400 + k)).isSome = true) →
    ∃ t, runN s.res.txn.toNat s = .next t ∧ t.stat.busy = true ∧
      t.line.txlog = s.line.txlog ++ (List.range s.res.txn.toNat).map (fun k => (Mem.read s.mem (0x400 + k)).getD 0) ∧
      t.line.fifo = s.line.fifo ++ s.arrivals s.res.txn.toNat ∧ t.mem = s.mem ∧ t.rc = s.rc ∧
      t.phase = if s.seq.rxmode then .reasm else if s.regs.settle = 0 then .snap else .settle

/-! ## Channel commands: reception -/

/-- The settle wait lasts exactly SETTLE cycles: through it no byte is sampled or popped, the bytes that arrive stay in the FIFO,
and SNAP begins in the cycle after it (rules R212, R299). The model's choice: T counts the cycles up from 0 (log entry 19). -/
def Obligations.SettleWaitLastsExactlySettleCycles : Prop :=
  ∀ (s : State) (i : Instr), s.stat.busy = true → s.phase = .settle → s.seq.t = 0 → 1 ≤ s.regs.settle.toNat →
    decode s.params s.fetch = .ok i → i ∈ channelInstrs → s.noReset s.regs.settle.toNat →
    (∀ k < s.regs.settle.toNat, ∃ t, runN k s = .next t ∧ t.stat.busy = true ∧ t.phase = .settle ∧
      t.line.fifo = s.line.fifo ++ s.arrivals k) ∧
    ∃ t, runN s.regs.settle.toNat s = .next t ∧ t.stat.busy = true ∧ t.phase = .snap ∧
      t.line.fifo = s.line.fifo ++ s.arrivals s.regs.settle.toNat ∧ t.mem = s.mem ∧ t.rxn = s.rxn ∧ t.rc = s.rc

/-- The first cycle of SNAP samples the count once, saturated at 0xFFFF; with no byte there, SEND, RDD, WRD and PING end with
`NO_REPLY` and RXN = 0, and RID, RERR, QN and QB keep their values (rules R193, R213, R215). The model's choice: the sampling
cycle pops nothing and `NO_REPLY` ends the command in that same cycle (log entry 12), and I is cleared here (log entry 19). SCAN
with no byte is ScanGoesOnAfterNoReply's. -/
def Obligations.SnapshotSamplesTheCountOnce : Prop :=
  ∀ (i : Instr) (s : State), s.phase = .snap → s.seq.snap = none →
    (i ∈ channelInstrs → s.line.fifo ≠ [] →
      exec i s =
        .next { s with
          seq := { s.seq with snap := some (BitVec.ofNat 16 (min s.line.fifo.length 0xFFFF)), i := 0, dly := 0 } }) ∧
    (i ∈ replyInstrs → s.line.fifo = [] → exec i s = .next ((s.setRxn 0).endsAs i false .noReply))

/-- A pop of SNAP takes the oldest byte, keeps it in RXB if it is one of the first 259, and after the last one RXN takes the
sampled count (rules R193, R213, R214). The model's choice: RXN is written, and PARSE entered, in the very cycle of the last pop
(log entry 12), and the pops are counted by I (log entry 19). -/
def Obligations.SnapshotPopsTheOldestByte : Prop :=
  ∀ (i : Instr) (s : State) (n : Half) (b : Byte) (rest : List Byte), i ∈ channelInstrs → s.phase = .snap →
    s.seq.snap = some n → s.params.popCycles ≤ s.seq.dly + 1 → s.line.fifo = b :: rest → s.seq.i.toNat < n.toNat →
    ∃ t, exec i s = .next t ∧
      storesAt s t (0x600 + s.seq.i.toNat) (if s.seq.i.toNat < 259 then [b] else []) ∧
      t = { s with
        mem := t.mem
        line := { s.line with fifo := rest }
        pins := { s.pins with rxPop := true }
        seq := { s.seq with i := s.seq.i + 1, dly := 0 }
        rxn := if s.seq.i.toNat + 1 = n.toNat then n else s.rxn
        phase := if s.seq.i.toNat + 1 = n.toNat then .parse else .snap }

/-- SNAPSHOT reads exactly the bytes that were in the FIFO when the count was sampled, or the first 0xFFFF of them where there were
more: the first 259 are in RXB in arrival order, RXB above them and every other buffer is unchanged, RXN is the count, and the
bytes behind them and those that came later stay in the FIFO (rules R193, R213, R214, R222). The model's choice: the number of
cycles, because the sample takes a cycle of its own (log entry 12) and every pop takes the same count (log entry 2); and the
bytes of the sample's own cycle stay behind (log entry 7). -/
def Obligations.SnapshotReadsExactlyTheSampledBytes : Prop :=
  ∀ (s : State) (i : Instr), s.stat.busy = true → s.phase = .snap → s.seq.snap = none →
    decode s.params s.fetch = .ok i → i ∈ channelInstrs → 1 ≤ s.params.popCycles → s.line.fifo ≠ [] →
    let got := s.line.fifo.take 0xFFFF
    let total := 1 + got.length * s.params.popCycles
    s.noReset total →
    ∃ t, runN total s = .next t ∧ t.stat.busy = true ∧ t.phase = .parse ∧
      t.rxn = BitVec.ofNat 16 got.length ∧ storesAt s t 0x600 (got.take 259) ∧
      t.line.fifo = s.line.fifo.drop 0xFFFF ++ s.arrivals total ∧ t.line.txlog = s.line.txlog ∧ t.rc = s.rc

/-- One iteration of the reassembly loop (rules R218, R219, R221): the timeout test, the wait for a byte, the pop of one byte, and
the completeness test. A timeout with no byte ends SEND, RDD, WRD and PING with `NO_REPLY` (SCAN then goes on:
ScanGoesOnAfterNoReply). The model's choice: `NO_REPLY`, RXN and the move to PARSE stand in the very cycle of the timeout or the
completeness test (log entry 12), the completeness test of rule R219 leaves the checksum unit's hidden registers ACC, CNT, B0 and
B1 as they are (log entry 8), and k of rule R218 is I (log entry 19). -/
def Obligations.ReassemblyTakesAtMostOneByteACycle : Prop :=
  ∀ (i : Instr) (s : State), i ∈ channelInstrs → s.phase = .reasm →
    (s.regs.timeout.toNat ≤ s.seq.t.toNat → s.seq.i ≠ 0 →
      exec i s = .next { s with rxn := s.seq.i, phase := .parse, seq := { s.seq with dly := 0 } }) ∧
    (s.regs.timeout.toNat ≤ s.seq.t.toNat → s.seq.i = 0 → i ∈ replyInstrs →
      exec i s = .next ((s.setRxn 0).endsAs i false .noReply)) ∧
    (s.seq.t.toNat < s.regs.timeout.toNat → s.line.fifo = [] →
      exec i s = .next { s with seq := { s.seq with t := s.seq.t + 1 } }) ∧
    (∀ b rest, s.seq.t.toNat < s.regs.timeout.toNat → s.line.fifo = b :: rest →
      let k : Half := if s.seq.i = 0xFFFF then 0xFFFF else s.seq.i + 1
      let whole := s.seq.i.toNat < 259 ∧ ∃ r, decodeFrame (s.bytes 0x600 s.seq.i.toNat ++ [b]) = .ok r
      ∃ t, exec i s = .next t ∧
        storesAt s t (0x600 + s.seq.i.toNat) (if s.seq.i.toNat < 259 then [b] else []) ∧
        (whole → t = { s with
          mem := t.mem
          line := { s.line with fifo := rest }
          pins := { s.pins with rxPop := true }
          rxn := k
          phase := .parse
          seq := { s.seq with i := k, dly := 0 } }) ∧
        (¬ whole → t = { s with
          mem := t.mem
          line := { s.line with fifo := rest }
          pins := { s.pins with rxPop := true }
          seq := { s.seq with i := k, t := s.seq.t + 1 } }))

/-- REASSEMBLE reception is over at most TIMEOUT + 1 cycles after it began with T = 0, whatever arrives (rules R218, R220, R299). -/
def Obligations.ReassemblyEndsByItsTimeout : Prop :=
  ∀ (s : State) (i : Instr), s.stat.busy = true → s.phase = .reasm → s.seq.t = 0 →
    decode s.params s.fetch = .ok i → i ∈ channelInstrs → s.noReset (s.regs.timeout.toNat + 1) →
    ∃ k ≤ s.regs.timeout.toNat + 1, ∃ t, runN k s = .next t ∧ t.phase ≠ .reasm

/-! ## Channel commands: the reply -/

/-- SEND and RDD in the last cycle of the status parse: outputs and result as PST (rules R216, R230, R231). -/
def Obligations.SendAndRddEndWithTheStatus : Prop :=
  ∀ (i : Instr) (s : State), (i = .send ∨ i = .rdd) → s.atParseEnd →
    let f := s.bytes 0x600 s.rxn.toNat
    (∀ e, decodeFrame f = .error e →
      ∃ t, exec i s = .next t ∧ holdsQb s t [] ∧ t = { s.finish e with mem := t.mem, csu := t.csu }) ∧
    (∀ p, decodeFrame f = .ok (0xFE, p) →
      ∃ t, exec i s = .next t ∧ holdsQb s t [] ∧
        t = { s.finish .badReplyId with mem := t.mem, csu := t.csu }) ∧
    (∀ id p, decodeFrame f = .ok (id, p) → id ≠ 0xFE →
      ∃ t, exec i s = .next t ∧ holdsQb s t p.tail ∧
        t = { s.finish (statusCode (p.headD 0)) with
          res := { s.res with rid := id, rerr := p.headD 0, qn := BitVec.ofNat 8 (p.length - 1) }
          mem := t.mem, csu := t.csu })

/-- WRD in the last cycle of the status parse: the result goes to RC, and no output is written (rules R216, R232). -/
def Obligations.WrdDiscardsTheReplyButKeepsItsResult : Prop :=
  ∀ s : State, s.atParseEnd →
    let f := s.bytes 0x600 s.rxn.toNat
    (∀ e, decodeFrame f = .error e → ∃ t, exec .wrd s = .next t ∧ t = { s.finish e with csu := t.csu }) ∧
    (∀ p, decodeFrame f = .ok (0xFE, p) → ∃ t, exec .wrd s = .next t ∧ t = { s.finish .badReplyId with csu := t.csu }) ∧
    (∀ id p, decodeFrame f = .ok (id, p) → id ≠ 0xFE →
      ∃ t, exec .wrd s = .next t ∧ t = { s.finish (statusCode (p.headD 0)) with csu := t.csu })

/-- PING in the last cycle of the status parse: as SEND, with PINGOK = 1 exactly for an `OK` status of the pinged id
(rules R216, R233). -/
def Obligations.PingEndsWithPingok : Prop :=
  ∀ s : State, s.atParseEnd →
    let f := s.bytes 0x600 s.rxn.toNat
    (∀ e, decodeFrame f = .error e →
      ∃ t, exec .ping s = .next t ∧ holdsQb s t [] ∧
        t = { s.endsAs .ping false e with mem := t.mem, csu := t.csu }) ∧
    (∀ p, decodeFrame f = .ok (0xFE, p) →
      ∃ t, exec .ping s = .next t ∧ holdsQb s t [] ∧
        t = { s.endsAs .ping false .badReplyId with mem := t.mem, csu := t.csu }) ∧
    (∀ id p, decodeFrame f = .ok (id, p) → id ≠ 0xFE →
      ∃ t, exec .ping s = .next t ∧ holdsQb s t p.tail ∧
        t = { s.endsAs .ping (decide (statusCode (p.headD 0) = .ok ∧ id = s.regs.id)) (statusCode (p.headD 0)) with
          res := { s.res with rid := id, rerr := p.headD 0, qn := BitVec.ofNat 8 (p.length - 1) }
          mem := t.mem, csu := t.csu })

/-- SCAN in the last cycle of a ping's status parse (rule R234): a matching `OK` is noted at `SCANLIST[m]`, any other outcome is
not; RC is not written; the next id follows, or the end with SCANN = m and the listed outputs open. The model's choice: scan_id
moves on in this cycle and keeps the last id (log entry 20), SCAN_STEP follows each ping but the last (log entry 9), and m is a
register (log entry 4). -/
def Obligations.ScanCollectsMatchingResponders : Prop :=
  ∀ s : State, s.atParseEnd →
    let f := s.bytes 0x600 s.rxn.toNat
    let hit := ∃ p, decodeFrame f = .ok (s.seq.scanId, p) ∧ s.seq.scanId ≠ 0xFE ∧ statusCode (p.headD 0) = .ok
    let m := s.seq.scanM
    ∃ t m', exec .scan s = .next t ∧ (hit → m' = m + 1) ∧ (¬ hit → m' = m) ∧
      (∀ a < 0x200, Mem.read t.mem a = Mem.read s.mem a) ∧
      (∀ k < m.toNat, m.toNat < 255 → Mem.read t.mem (0x300 + k) = Mem.read s.mem (0x300 + k)) ∧
      (hit → m.toNat < 255 → Mem.read t.mem (0x300 + m.toNat) = some s.seq.scanId) ∧
      (s.seq.scanId.toNat < s.regs.scanhi.toNat →
        t = { s with
          phase := .scanStep
          seq := { s.seq with scanM := m', scanId := s.seq.scanId + 1, dly := 0 }
          res := { s.res with rid := t.res.rid, rerr := t.res.rerr, qn := t.res.qn }
          mem := t.mem, csu := t.csu }) ∧
      (s.regs.scanhi.toNat ≤ s.seq.scanId.toNat →
        t = { s.finish .ok with
          stat := { s.stat with busy := false, done := true, pingok := t.stat.pingok }
          seq := { s.seq with scanM := m', dly := 0 }
          res := { t.res with scann := m' }
          rxn := t.rxn, mem := t.mem, csu := t.csu })

/-- SCAN goes on after a ping that nobody answered, in either mode (no byte at the sample of SNAPSHOT, or a timeout of REASSEMBLE
with no byte taken): the next id, or the end with SCANN = m (rules R215, R218, R220, R234). The model's choice: it goes on in the
very cycle of the sample or of the timeout test (log entry 12), the bytes taken are counted by I (log entry 19), and scan_id moves
on in this cycle and keeps the last id (log entry 20). -/
def Obligations.ScanGoesOnAfterNoReply : Prop :=
  ∀ s : State,
    (s.phase = .snap ∧ s.seq.snap = none ∧ s.line.fifo = []) ∨
      (s.phase = .reasm ∧ s.regs.timeout.toNat ≤ s.seq.t.toNat ∧ s.seq.i = 0) →
    (s.seq.scanId.toNat < s.regs.scanhi.toNat →
      exec .scan s =
        .next { s with rxn := 0, phase := .scanStep, seq := { s.seq with scanId := s.seq.scanId + 1, dly := 0 } }) ∧
    (s.regs.scanhi.toNat ≤ s.seq.scanId.toNat →
      ∃ t, exec .scan s = .next t ∧
        (∀ a < 0x200, Mem.read t.mem a = Mem.read s.mem a) ∧
        (∀ k < s.seq.scanM.toNat, Mem.read t.mem (0x300 + k) = Mem.read s.mem (0x300 + k)) ∧
        t = { s.finish .ok with
          stat := { s.stat with busy := false, done := true, pingok := t.stat.pingok }
          res := { t.res with scann := s.seq.scanM }
          rxn := t.rxn, mem := t.mem })

/-- One whole PING in SNAPSHOT mode, from its acceptance to its end, whatever the host does meanwhile short of a reset and
whatever stale bytes were in the FIFO: the frame of `(ID, PING, [])` is handed over once, and the result, RXN and PINGOK are those
of the bytes that arrived from the flush to the count sample (rules R191, R193, R196, R212, R213, R216, R233, R299). The model's
choice: the number of cycles (equal pops, log entry 2; the order inside FLUSH, TX and SNAP, log entries 11, 12, 18); which cycles'
bytes make the reply (from the flush's own cycle on, without the sample's own, log entry 7); and DONE = 1 whatever the host does
(log entry 10). -/
def Obligations.PingExchangesOneFrame : Prop :=
  ∀ s : State, s.stat.busy = true → s.phase = .localCmd → s.seq.dly = 0 → s.seq.cmd = 0x09 → s.seq.rxmode = false →
    s.stat.opened = true → s.regs.id ≠ 0xFF → s.params.CyclesOk →
    let p := s.params
    let pre := p.buildCycles + p.flushCycles
    let sample := pre + 6 + s.regs.settle.toNat
    let reply := ((s.arrivals sample).drop (s.arrivals (pre - 1)).length).take 0xFFFF
    let n := reply.length
    let total := sample + 1 + n * p.popCycles + p.parseCycles
    reply ≠ [] → s.noReset total → s.txReadyFor total →
    ∃ t, runN total s = .next t ∧ t.stat.busy = false ∧ t.stat.done = true ∧ t.phase = .idle ∧
      t.line.txlog = s.line.txlog ++ frameLayout s.regs.id [0x01] ∧
      t.rxn = BitVec.ofNat 16 n ∧
      t.rc = (parseStatus n reply).code ∧
      t.stat.pingok = (parseStatus n reply).matchesId s.regs.id ∧
      (∀ k < min n 259, Mem.read t.mem (0x600 + k) = reply[k]?)

/-! ## Rules of the whole machine -/

/-- A step runs the decoded instruction: where BUSY = 1 and the fetched unit decodes to i, a cycle without reset is i's cycle on the
state with the cycle's host access made, and then the cycle's end, at which the environment's bytes arrive. Where BUSY = 0, a
cycle without reset is the host's access alone and the cycle's end: a write of CMD starts a command, and nothing else runs
(rules R20, R23, R79, R95, R108, R211). The model's choice: which unit is fetched (log entry 1), the environment's bytes at the
cycle's end (log entry 7), and the host's access before the command's action (log entry 10). -/
def Obligations.StepRunsTheDecodedInstruction : Prop :=
  (∀ (s : State) (i : Instr), s.now.rst = false → s.stat.busy = true → decode s.params s.fetch = .ok i →
    step s = onNext State.endCycle (exec i s.front)) ∧
  ∀ s : State, s.now.rst = false → s.stat.busy = false →
    (s.now.host = none → step s = .next s.beginCycle.endCycle) ∧
    (∀ a, s.now.host = some (.rd a) →
      step s = .next (s.beginCycle.setRdata (some (s.beginCycle.busRead a))).endCycle) ∧
    (∀ a d, s.now.host = some (.wr a d) → step s = .next (s.beginCycle.busWrite a d).endCycle) ∧
    ∃ t, step s = .next t ∧
      (∀ c, s.now.host = some (.wr 0x000 c) →
        t.stat.busy = true ∧ t.phase = .localCmd ∧ t.seq = { s.seq with cmd := c, rxmode := s.ctrl.rxmode, dly := 0 }) ∧
      ((∀ c, s.now.host ≠ some (.wr 0x000 c)) → t.stat.busy = false ∧ t.phase = s.phase ∧ t.seq = s.seq) ∧
      t.rc = s.rc ∧ t.stat.opened = s.stat.opened ∧ t.stat.pingok = s.stat.pingok ∧ t.res = s.res ∧ t.csu = s.csu ∧
      t.pins = Pins.quiet ∧ t.line.txlog = s.line.txlog ∧ t.line.fifo = s.line.fifo ++ s.now.rx

/-- An illegal command code in its last cycle ends with `BAD_COMMAND` and has no other effect (rule R102). The model's choice: the
host's access of that cycle comes first, and the end wins over an acknowledge, so DONE is 1 (log entry 10); the environment's
bytes arrive at the cycle's end (log entry 7). -/
def Obligations.IllegalCommandEndsWithBadCommand : Prop :=
  ∀ s : State, s.now.rst = false → s.stat.busy = true → s.atLocalEnd → commandOf s.seq.cmd = none →
    step s = .next (s.front.finish .badCommand).endCycle

/-- No command writes an operand register, CTRL, or PB, and neither does the host while a command runs, CTRL excepted
(rules R21, R77, R81). -/
def Obligations.OperandsAreFrozenWhileBusy : Prop :=
  (∀ (i : Instr) (s t : State), exec i s = .next t →
    t.regs = s.regs ∧ t.ctrl = s.ctrl ∧ t.seq.cmd = s.seq.cmd ∧ t.seq.rxmode = s.seq.rxmode ∧
    ∀ a < 0x200, Mem.read t.mem a = Mem.read s.mem a) ∧
  (∀ s t : State, s.now.rst = false → s.stat.busy = true → step s = .next t →
    t.regs = s.regs ∧ t.seq.cmd = s.seq.cmd ∧ t.seq.rxmode = s.seq.rxmode ∧
    ∀ a < 0x200, Mem.read t.mem a = Mem.read s.mem a)

/-- RC is written once, at the command's end, together with BUSY, DONE and the phase (rules R31, R262): a cycle either leaves the
three of them as they are or ends the command. -/
def Obligations.ResultIsWrittenOnlyAtTheEnd : Prop :=
  ∀ (i : Instr) (s t : State), exec i s = .next t →
    (t.rc = s.rc ∧ t.stat.busy = s.stat.busy ∧ t.stat.done = s.stat.done) ∨
    (t.stat.busy = false ∧ t.stat.done = true ∧ t.phase = .idle)

/-- The UART sees only what rules R96, R191 to R193 allow: the transmit trace grows by the one byte that phase TX hands over, and
only then; the receive FIFO loses its first byte or, at the flush, all of them; a local command touches neither. The model's
choice: the byte handed over is the one at index I (log entry 19). -/
def Obligations.OnlyTheTxPhaseHandsOverBytes : Prop :=
  ∀ (i : Instr) (s t : State), exec i s = .next t →
    (t.line.txlog = s.line.txlog ∨
      (s.phase = .tx ∧ s.now.txReady = true ∧ t.line.txlog = s.line.txlog ++ [s.peek (0x400 + s.seq.i.toNat) 0])) ∧
    (t.line.fifo = s.line.fifo ∨ (s.phase = .flush ∧ t.line.fifo = []) ∨
      ((s.phase = .snap ∨ s.phase = .reasm) ∧ t.line.fifo = s.line.fifo.tail)) ∧
    (i.isLocal = true → t.line = s.line ∧ t.pins.tx = s.pins.tx ∧ t.pins.rxPop = s.pins.rxPop ∧
      t.pins.rxFlush = s.pins.rxFlush)

/-- STAT.PINGOK is written by PING and SCAN alone, STAT.OPEN by OPEN and CLOSE alone, and OVR by no command
(rules R27, R28, R29). -/
def Obligations.StatusBitsHaveTheirOwnWriters : Prop :=
  ∀ (i : Instr) (s t : State), exec i s = .next t →
    (i ≠ .ping → i ≠ .scan → t.stat.pingok = s.stat.pingok) ∧
    (i ≠ .openCh → i ≠ .closeCh → t.stat.opened = s.stat.opened) ∧
    t.stat.ovr = s.stat.ovr

/-! ## The host's accesses, reset and the interrupt -/

/-- Acceptance (rules R23, R24, R44): a write of CMD in IDLE sets BUSY, clears DONE, latches the code and CTRL.RXMODE, and puts the
sequencer in LOCAL; besides, only the model's count of a step's cycles is cleared. -/
def Obligations.WritingCmdAcceptsTheCommand : Prop :=
  ∀ (s : State) (c : Byte), s.stat.busy = false →
    s.busWrite 0x000 c =
      { s with
        stat := { s.stat with busy := true, done := false }
        phase := .localCmd
        seq := { s.seq with cmd := c, rxmode := s.ctrl.rxmode, dly := 0 } }

/-- While BUSY = 1 the writes that rule R77 lists are dropped and set OVR; CTRL and STAT are written, and every other address
ignores the write (rules R24, R30, R72, R76, R77). -/
def Obligations.BusyWritesAreDroppedWithOvr : Prop :=
  ∀ (s : State) (a : Addr) (d : Byte), s.stat.busy = true →
    (lockedAddr a.toNat → s.busWrite a d = s.setStat { s.stat with ovr := true }) ∧
    (a.toNat = 0x001 → s.busWrite a d = s.setCtrl { ie := d.getLsbD 0, rxmode := d.getLsbD 1 }) ∧
    (a.toNat = 0x002 → s.busWrite a d =
      s.setStat { s.stat with done := s.stat.done && !d.getLsbD 1, ovr := s.stat.ovr && !d.getLsbD 3 }) ∧
    (reservedAddr a.toNat ∨ readOnlyAddr a.toNat → s.busWrite a d = s)

/-- A host read changes nothing but the byte on the bus (rule R76), and the byte is the one of the register map, wide registers
little-endian, reserved addresses zero (rules R71, R72, R74), unless rule R78 leaves it UNSPECIFIED. The model's choice: CMD reads
0x00 while BUSY = 1 too (log entry 10). -/
def Obligations.HostReadsTheRegisterMap : Prop :=
  ∀ (s : State) (a : Addr), s.now.host = some (.rd a) →
    ∃ v, s.hostAccess = s.setRdata (some v) ∧
      (s.stat.busy = false ∨ ¬ hiddenAddr a.toNat →
        (a.toNat < 0x24 → some v = (registerFile s)[a.toNat]?) ∧
        (reservedAddr a.toNat → v = 0) ∧
        (∀ b, bufferAddr a.toNat = true → Mem.read s.mem a.toNat = some b → v = b))

/-- A host write in IDLE to an RW place reads back, and every other address reads as before; a write to a read-only or reserved
address changes nothing (rules R24, R72, R74, R76). -/
def Obligations.HostWritesReadBack : Prop :=
  ∀ (s : State) (a : Addr) (d : Byte), s.stat.busy = false →
    (plainRw a.toNat → (s.busWrite a d).busRead a = d ∧
      ∀ a' : Addr, a' ≠ a → (s.busWrite a d).busRead a' = s.busRead a') ∧
    (a.toNat = 0x001 → (s.busWrite a d).busRead a = d &&& 0x03 ∧
      ∀ a' : Addr, a' ≠ a → (s.busWrite a d).busRead a' = s.busRead a') ∧
    (reservedAddr a.toNat ∨ readOnlyAddr a.toNat → s.busWrite a d = s)

/-- A write of STAT, even while BUSY = 1, clears DONE and OVR where it writes 1 and reaches no other bit; bits 7:5 read as zero, and
the interrupt follows DONE and IE (rules R26, R28, R30, R266). -/
def Obligations.StatIsWriteOneToClear : Prop :=
  ∀ (s : State) (d : Byte),
    let t := s.busWrite 0x002 d
    t = { s with stat := { s.stat with done := s.stat.done && !d.getLsbD 1, ovr := s.stat.ovr && !d.getLsbD 3 } } ∧
    t.stat.byte = s.stat.byte &&& ~~~ (d &&& 0x0A) ∧ t.stat.byte &&& 0xE0 = 0 ∧
    t.irq = (s.stat.done && !d.getLsbD 1 && s.ctrl.ie)

/-- A reset edge, whatever the block is doing (rules R290, R291): the reset values, no buffer entry specified, the channel
released, `fifo` and `txlog` kept, and no interrupt. The model's choice: the bytes of the reset cycle arrive (log entry 7), and the
strobes are fields that show the last cycle (log entry 6). -/
def Obligations.ResetEdgeGivesTheResetState : Prop :=
  ∀ s : State, s.now.rst = true →
    ∃ t, step s = .next t ∧
      t.ctrl = { ie := false, rxmode := false } ∧
      t.stat = { busy := false, done := false, opened := false, ovr := false, pingok := false } ∧ t.rc = .ok ∧
      t.regs = { id := 0, opc := 0, pn := 0, addr := 0, rlen := 0, scanlo := 0, scanhi := 0xFD, settle := 0, timeout := 0,
                 baud := 0 } ∧
      t.res = { csum := 0, rid := 0, rerr := 0, qn := 0, scann := 0, txn := 0 } ∧ t.rxn = 0 ∧ t.phase = .idle ∧
      (∀ a, Mem.read t.mem a = none) ∧ t.csu = { acc := 0, cnt := 0, b0 := 0, b1 := 0 } ∧
      t.seq.cmd = 0 ∧ t.seq.rxmode = false ∧ t.seq.t = 0 ∧ t.seq.i = 0 ∧ t.seq.scanId = 0 ∧
      t.pins = { opened := none, closed := true, rxFlush := false, tx := none, rxPop := false } ∧
      t.line.txlog = s.line.txlog ∧ t.line.fifo = s.line.fifo ++ s.now.rx ∧ t.irq = false

/-! ## The invariant -/

/-- Every step keeps the invariant. -/
def Obligations.StepKeepsTheInvariant : Prop :=
  ∀ s t : State, s.Inv → step s = .next t → t.Inv

/-- The invariant holds right after reset. -/
def Obligations.ResetStateMeetsTheInvariant : Prop := State.reset.Inv

/-- From a state with the invariant no step faults or is refused: the sequencer never stands in a phase its command does not name
(rule R44), and it never pops an empty FIFO (rule R193); that these two fault is the model's (log entry 14). -/
def Obligations.InvariantRulesOutEveryStop : Prop :=
  ∀ s : State, s.Inv → ∃ t, step s = .next t

/-! ## Values and waiting cycles -/

/-- The numbers behind the names of registerFile: the values of RC (rule R260) and PHASE (rule R44), and the bits of CTRL (rule R24)
and STAT (rules R25 to R30), the reserved bits zero. -/
def Obligations.RegisterValuesOfTheTables : Prop :=
  (ResultCode.ok.code = 0x00 ∧ ResultCode.noReply.code = 0x01 ∧
    ResultCode.csShort.code = 0x10 ∧ ResultCode.csId.code = 0x11 ∧ ResultCode.csLength.code = 0x12 ∧
    ResultCode.fVoltage.code = 0x20 ∧ ResultCode.fAngle.code = 0x21 ∧ ResultCode.fOverheat.code = 0x22 ∧
    ResultCode.fRange.code = 0x23 ∧ ResultCode.fChecksum.code = 0x24 ∧ ResultCode.fOverload.code = 0x25 ∧
    ResultCode.fInstruction.code = 0x26 ∧
    ResultCode.badOpcode.code = 0x30 ∧ ResultCode.paramCount.code = 0x31 ∧ ResultCode.idRange.code = 0x32 ∧
    ResultCode.payloadLong.code = 0x33 ∧
    ResultCode.frameShort.code = 0x40 ∧ ResultCode.badHeader.code = 0x41 ∧ ResultCode.badLength.code = 0x42 ∧
    ResultCode.badChecksum.code = 0x43 ∧ ResultCode.badId.code = 0x44 ∧ ResultCode.badReplyId.code = 0x45 ∧
    ResultCode.badCommand.code = 0x50 ∧ ResultCode.closed.code = 0x51) ∧
  (Phase.idle.code = 0 ∧ Phase.localCmd.code = 1 ∧ Phase.flush.code = 2 ∧ Phase.tx.code = 3 ∧ Phase.settle.code = 4 ∧
    Phase.snap.code = 5 ∧ Phase.reasm.code = 6 ∧ Phase.parse.code = 7 ∧ Phase.scanStep.code = 8) ∧
  (∀ c : Ctrl, c.byte.toNat = c.ie.toNat + 2 * c.rxmode.toNat) ∧
  ∀ st : Stat, st.byte.toNat =
    st.busy.toNat + 2 * st.done.toNat + 4 * st.opened.toNat + 8 * st.ovr.toNat + 16 * st.pingok.toNat

/-- A cycle of a step of several cycles before its last changes only the count of the step's cycles, for every such step: a local
command and an illegal code (rules R102, R262), the build step, the flush, a pop, the parse, and SCAN's step (rule R299). The
model's choice: a step acts in its last cycle (log entry 2), the count is a register (log entry 4), each pop is such a step
(log entry 12), SCAN's pings have no build step (log entry 9), and PING clears PINGOK from its first cycle on (log entry 13). -/
def Obligations.WaitingCyclesChangeOnlyTheirCount : Prop :=
  ∀ (i : Instr) (s : State),
    let p := s.params
    let d := s.seq.dly + 1
    let wait := { s with seq := { s.seq with dly := d } }
    (i.isLocal = true → s.phase = .localCmd → d < p.latLocal → exec i s = .next wait) ∧
    (s.phase = .localCmd → d < p.latLocal → s.illegalCycle = .next wait) ∧
    (i ∈ channelInstrs → i ≠ .ping → s.phase = .localCmd → d < p.buildCycles → exec i s = .next wait) ∧
    (i = .ping → s.phase = .localCmd → d < p.buildCycles →
      exec i s = .next { wait with stat := { s.stat with pingok := false } }) ∧
    (i = .scan → s.phase = .scanStep → d < p.scanStepCycles → exec i s = .next wait) ∧
    (i ∈ channelInstrs → s.phase = .flush → d < p.flushCycles → exec i s = .next wait) ∧
    (i ∈ channelInstrs → ∀ n, s.phase = .snap → s.seq.snap = some n → d < p.popCycles → exec i s = .next wait) ∧
    (i ∈ channelInstrs → s.phase = .parse → d < p.parseCycles → exec i s = .next wait)
end

