-- ==== Sys2Proof/Laws/State.lean ====
section
/-! SUPPORT. Sys2Proof/Laws/State.lean: one lemma for each field of State after each named update, true by definition. -/

namespace Sys2Proof.Machine

/-! ## State.setCtrl -/

@[simp] theorem State.setCtrl_ctrl (s : State) (v : Ctrl) : (s.setCtrl v).ctrl = v := rfl
@[simp] theorem State.setCtrl_stat (s : State) (v : Ctrl) : (s.setCtrl v).stat = s.stat := rfl
@[simp] theorem State.setCtrl_rc (s : State) (v : Ctrl) : (s.setCtrl v).rc = s.rc := rfl
@[simp] theorem State.setCtrl_regs (s : State) (v : Ctrl) : (s.setCtrl v).regs = s.regs := rfl
@[simp] theorem State.setCtrl_res (s : State) (v : Ctrl) : (s.setCtrl v).res = s.res := rfl
@[simp] theorem State.setCtrl_rxn (s : State) (v : Ctrl) : (s.setCtrl v).rxn = s.rxn := rfl
@[simp] theorem State.setCtrl_phase (s : State) (v : Ctrl) : (s.setCtrl v).phase = s.phase := rfl
@[simp] theorem State.setCtrl_mem (s : State) (v : Ctrl) : (s.setCtrl v).mem = s.mem := rfl
@[simp] theorem State.setCtrl_csu (s : State) (v : Ctrl) : (s.setCtrl v).csu = s.csu := rfl
@[simp] theorem State.setCtrl_seq (s : State) (v : Ctrl) : (s.setCtrl v).seq = s.seq := rfl
@[simp] theorem State.setCtrl_line (s : State) (v : Ctrl) : (s.setCtrl v).line = s.line := rfl
@[simp] theorem State.setCtrl_pins (s : State) (v : Ctrl) : (s.setCtrl v).pins = s.pins := rfl
@[simp] theorem State.setCtrl_rdata (s : State) (v : Ctrl) : (s.setCtrl v).rdata = s.rdata := rfl
@[simp] theorem State.setCtrl_params (s : State) (v : Ctrl) : (s.setCtrl v).params = s.params := rfl
@[simp] theorem State.setCtrl_draws (s : State) (v : Ctrl) : (s.setCtrl v).draws = s.draws := rfl
@[simp] theorem State.setCtrl_script (s : State) (v : Ctrl) : (s.setCtrl v).script = s.script := rfl
@[simp] theorem State.setCtrl_lateReady (s : State) (v : Ctrl) : (s.setCtrl v).lateReady = s.lateReady := rfl

/-! ## State.setStat -/

@[simp] theorem State.setStat_ctrl (s : State) (v : Stat) : (s.setStat v).ctrl = s.ctrl := rfl
@[simp] theorem State.setStat_stat (s : State) (v : Stat) : (s.setStat v).stat = v := rfl
@[simp] theorem State.setStat_rc (s : State) (v : Stat) : (s.setStat v).rc = s.rc := rfl
@[simp] theorem State.setStat_regs (s : State) (v : Stat) : (s.setStat v).regs = s.regs := rfl
@[simp] theorem State.setStat_res (s : State) (v : Stat) : (s.setStat v).res = s.res := rfl
@[simp] theorem State.setStat_rxn (s : State) (v : Stat) : (s.setStat v).rxn = s.rxn := rfl
@[simp] theorem State.setStat_phase (s : State) (v : Stat) : (s.setStat v).phase = s.phase := rfl
@[simp] theorem State.setStat_mem (s : State) (v : Stat) : (s.setStat v).mem = s.mem := rfl
@[simp] theorem State.setStat_csu (s : State) (v : Stat) : (s.setStat v).csu = s.csu := rfl
@[simp] theorem State.setStat_seq (s : State) (v : Stat) : (s.setStat v).seq = s.seq := rfl
@[simp] theorem State.setStat_line (s : State) (v : Stat) : (s.setStat v).line = s.line := rfl
@[simp] theorem State.setStat_pins (s : State) (v : Stat) : (s.setStat v).pins = s.pins := rfl
@[simp] theorem State.setStat_rdata (s : State) (v : Stat) : (s.setStat v).rdata = s.rdata := rfl
@[simp] theorem State.setStat_params (s : State) (v : Stat) : (s.setStat v).params = s.params := rfl
@[simp] theorem State.setStat_draws (s : State) (v : Stat) : (s.setStat v).draws = s.draws := rfl
@[simp] theorem State.setStat_script (s : State) (v : Stat) : (s.setStat v).script = s.script := rfl
@[simp] theorem State.setStat_lateReady (s : State) (v : Stat) : (s.setStat v).lateReady = s.lateReady := rfl

/-! ## State.setRc -/

@[simp] theorem State.setRc_ctrl (s : State) (v : ResultCode) : (s.setRc v).ctrl = s.ctrl := rfl
@[simp] theorem State.setRc_stat (s : State) (v : ResultCode) : (s.setRc v).stat = s.stat := rfl
@[simp] theorem State.setRc_rc (s : State) (v : ResultCode) : (s.setRc v).rc = v := rfl
@[simp] theorem State.setRc_regs (s : State) (v : ResultCode) : (s.setRc v).regs = s.regs := rfl
@[simp] theorem State.setRc_res (s : State) (v : ResultCode) : (s.setRc v).res = s.res := rfl
@[simp] theorem State.setRc_rxn (s : State) (v : ResultCode) : (s.setRc v).rxn = s.rxn := rfl
@[simp] theorem State.setRc_phase (s : State) (v : ResultCode) : (s.setRc v).phase = s.phase := rfl
@[simp] theorem State.setRc_mem (s : State) (v : ResultCode) : (s.setRc v).mem = s.mem := rfl
@[simp] theorem State.setRc_csu (s : State) (v : ResultCode) : (s.setRc v).csu = s.csu := rfl
@[simp] theorem State.setRc_seq (s : State) (v : ResultCode) : (s.setRc v).seq = s.seq := rfl
@[simp] theorem State.setRc_line (s : State) (v : ResultCode) : (s.setRc v).line = s.line := rfl
@[simp] theorem State.setRc_pins (s : State) (v : ResultCode) : (s.setRc v).pins = s.pins := rfl
@[simp] theorem State.setRc_rdata (s : State) (v : ResultCode) : (s.setRc v).rdata = s.rdata := rfl
@[simp] theorem State.setRc_params (s : State) (v : ResultCode) : (s.setRc v).params = s.params := rfl
@[simp] theorem State.setRc_draws (s : State) (v : ResultCode) : (s.setRc v).draws = s.draws := rfl
@[simp] theorem State.setRc_script (s : State) (v : ResultCode) : (s.setRc v).script = s.script := rfl
@[simp] theorem State.setRc_lateReady (s : State) (v : ResultCode) : (s.setRc v).lateReady = s.lateReady := rfl

/-! ## State.setRegs -/

@[simp] theorem State.setRegs_ctrl (s : State) (v : OperandRegs) : (s.setRegs v).ctrl = s.ctrl := rfl
@[simp] theorem State.setRegs_stat (s : State) (v : OperandRegs) : (s.setRegs v).stat = s.stat := rfl
@[simp] theorem State.setRegs_rc (s : State) (v : OperandRegs) : (s.setRegs v).rc = s.rc := rfl
@[simp] theorem State.setRegs_regs (s : State) (v : OperandRegs) : (s.setRegs v).regs = v := rfl
@[simp] theorem State.setRegs_res (s : State) (v : OperandRegs) : (s.setRegs v).res = s.res := rfl
@[simp] theorem State.setRegs_rxn (s : State) (v : OperandRegs) : (s.setRegs v).rxn = s.rxn := rfl
@[simp] theorem State.setRegs_phase (s : State) (v : OperandRegs) : (s.setRegs v).phase = s.phase := rfl
@[simp] theorem State.setRegs_mem (s : State) (v : OperandRegs) : (s.setRegs v).mem = s.mem := rfl
@[simp] theorem State.setRegs_csu (s : State) (v : OperandRegs) : (s.setRegs v).csu = s.csu := rfl
@[simp] theorem State.setRegs_seq (s : State) (v : OperandRegs) : (s.setRegs v).seq = s.seq := rfl
@[simp] theorem State.setRegs_line (s : State) (v : OperandRegs) : (s.setRegs v).line = s.line := rfl
@[simp] theorem State.setRegs_pins (s : State) (v : OperandRegs) : (s.setRegs v).pins = s.pins := rfl
@[simp] theorem State.setRegs_rdata (s : State) (v : OperandRegs) : (s.setRegs v).rdata = s.rdata := rfl
@[simp] theorem State.setRegs_params (s : State) (v : OperandRegs) : (s.setRegs v).params = s.params := rfl
@[simp] theorem State.setRegs_draws (s : State) (v : OperandRegs) : (s.setRegs v).draws = s.draws := rfl
@[simp] theorem State.setRegs_script (s : State) (v : OperandRegs) : (s.setRegs v).script = s.script := rfl
@[simp] theorem State.setRegs_lateReady (s : State) (v : OperandRegs) : (s.setRegs v).lateReady = s.lateReady := rfl

/-! ## State.setRes -/

@[simp] theorem State.setRes_ctrl (s : State) (v : ResultRegs) : (s.setRes v).ctrl = s.ctrl := rfl
@[simp] theorem State.setRes_stat (s : State) (v : ResultRegs) : (s.setRes v).stat = s.stat := rfl
@[simp] theorem State.setRes_rc (s : State) (v : ResultRegs) : (s.setRes v).rc = s.rc := rfl
@[simp] theorem State.setRes_regs (s : State) (v : ResultRegs) : (s.setRes v).regs = s.regs := rfl
@[simp] theorem State.setRes_res (s : State) (v : ResultRegs) : (s.setRes v).res = v := rfl
@[simp] theorem State.setRes_rxn (s : State) (v : ResultRegs) : (s.setRes v).rxn = s.rxn := rfl
@[simp] theorem State.setRes_phase (s : State) (v : ResultRegs) : (s.setRes v).phase = s.phase := rfl
@[simp] theorem State.setRes_mem (s : State) (v : ResultRegs) : (s.setRes v).mem = s.mem := rfl
@[simp] theorem State.setRes_csu (s : State) (v : ResultRegs) : (s.setRes v).csu = s.csu := rfl
@[simp] theorem State.setRes_seq (s : State) (v : ResultRegs) : (s.setRes v).seq = s.seq := rfl
@[simp] theorem State.setRes_line (s : State) (v : ResultRegs) : (s.setRes v).line = s.line := rfl
@[simp] theorem State.setRes_pins (s : State) (v : ResultRegs) : (s.setRes v).pins = s.pins := rfl
@[simp] theorem State.setRes_rdata (s : State) (v : ResultRegs) : (s.setRes v).rdata = s.rdata := rfl
@[simp] theorem State.setRes_params (s : State) (v : ResultRegs) : (s.setRes v).params = s.params := rfl
@[simp] theorem State.setRes_draws (s : State) (v : ResultRegs) : (s.setRes v).draws = s.draws := rfl
@[simp] theorem State.setRes_script (s : State) (v : ResultRegs) : (s.setRes v).script = s.script := rfl
@[simp] theorem State.setRes_lateReady (s : State) (v : ResultRegs) : (s.setRes v).lateReady = s.lateReady := rfl

/-! ## State.setRxn -/

@[simp] theorem State.setRxn_ctrl (s : State) (v : Half) : (s.setRxn v).ctrl = s.ctrl := rfl
@[simp] theorem State.setRxn_stat (s : State) (v : Half) : (s.setRxn v).stat = s.stat := rfl
@[simp] theorem State.setRxn_rc (s : State) (v : Half) : (s.setRxn v).rc = s.rc := rfl
@[simp] theorem State.setRxn_regs (s : State) (v : Half) : (s.setRxn v).regs = s.regs := rfl
@[simp] theorem State.setRxn_res (s : State) (v : Half) : (s.setRxn v).res = s.res := rfl
@[simp] theorem State.setRxn_rxn (s : State) (v : Half) : (s.setRxn v).rxn = v := rfl
@[simp] theorem State.setRxn_phase (s : State) (v : Half) : (s.setRxn v).phase = s.phase := rfl
@[simp] theorem State.setRxn_mem (s : State) (v : Half) : (s.setRxn v).mem = s.mem := rfl
@[simp] theorem State.setRxn_csu (s : State) (v : Half) : (s.setRxn v).csu = s.csu := rfl
@[simp] theorem State.setRxn_seq (s : State) (v : Half) : (s.setRxn v).seq = s.seq := rfl
@[simp] theorem State.setRxn_line (s : State) (v : Half) : (s.setRxn v).line = s.line := rfl
@[simp] theorem State.setRxn_pins (s : State) (v : Half) : (s.setRxn v).pins = s.pins := rfl
@[simp] theorem State.setRxn_rdata (s : State) (v : Half) : (s.setRxn v).rdata = s.rdata := rfl
@[simp] theorem State.setRxn_params (s : State) (v : Half) : (s.setRxn v).params = s.params := rfl
@[simp] theorem State.setRxn_draws (s : State) (v : Half) : (s.setRxn v).draws = s.draws := rfl
@[simp] theorem State.setRxn_script (s : State) (v : Half) : (s.setRxn v).script = s.script := rfl
@[simp] theorem State.setRxn_lateReady (s : State) (v : Half) : (s.setRxn v).lateReady = s.lateReady := rfl

/-! ## State.setPhase -/

@[simp] theorem State.setPhase_ctrl (s : State) (v : Phase) : (s.setPhase v).ctrl = s.ctrl := rfl
@[simp] theorem State.setPhase_stat (s : State) (v : Phase) : (s.setPhase v).stat = s.stat := rfl
@[simp] theorem State.setPhase_rc (s : State) (v : Phase) : (s.setPhase v).rc = s.rc := rfl
@[simp] theorem State.setPhase_regs (s : State) (v : Phase) : (s.setPhase v).regs = s.regs := rfl
@[simp] theorem State.setPhase_res (s : State) (v : Phase) : (s.setPhase v).res = s.res := rfl
@[simp] theorem State.setPhase_rxn (s : State) (v : Phase) : (s.setPhase v).rxn = s.rxn := rfl
@[simp] theorem State.setPhase_phase (s : State) (v : Phase) : (s.setPhase v).phase = v := rfl
@[simp] theorem State.setPhase_mem (s : State) (v : Phase) : (s.setPhase v).mem = s.mem := rfl
@[simp] theorem State.setPhase_csu (s : State) (v : Phase) : (s.setPhase v).csu = s.csu := rfl
@[simp] theorem State.setPhase_seq (s : State) (v : Phase) : (s.setPhase v).seq = s.seq := rfl
@[simp] theorem State.setPhase_line (s : State) (v : Phase) : (s.setPhase v).line = s.line := rfl
@[simp] theorem State.setPhase_pins (s : State) (v : Phase) : (s.setPhase v).pins = s.pins := rfl
@[simp] theorem State.setPhase_rdata (s : State) (v : Phase) : (s.setPhase v).rdata = s.rdata := rfl
@[simp] theorem State.setPhase_params (s : State) (v : Phase) : (s.setPhase v).params = s.params := rfl
@[simp] theorem State.setPhase_draws (s : State) (v : Phase) : (s.setPhase v).draws = s.draws := rfl
@[simp] theorem State.setPhase_script (s : State) (v : Phase) : (s.setPhase v).script = s.script := rfl
@[simp] theorem State.setPhase_lateReady (s : State) (v : Phase) : (s.setPhase v).lateReady = s.lateReady := rfl

/-! ## State.setMem -/

@[simp] theorem State.setMem_ctrl (s : State) (v : List Host.Cell) : (s.setMem v).ctrl = s.ctrl := rfl
@[simp] theorem State.setMem_stat (s : State) (v : List Host.Cell) : (s.setMem v).stat = s.stat := rfl
@[simp] theorem State.setMem_rc (s : State) (v : List Host.Cell) : (s.setMem v).rc = s.rc := rfl
@[simp] theorem State.setMem_regs (s : State) (v : List Host.Cell) : (s.setMem v).regs = s.regs := rfl
@[simp] theorem State.setMem_res (s : State) (v : List Host.Cell) : (s.setMem v).res = s.res := rfl
@[simp] theorem State.setMem_rxn (s : State) (v : List Host.Cell) : (s.setMem v).rxn = s.rxn := rfl
@[simp] theorem State.setMem_phase (s : State) (v : List Host.Cell) : (s.setMem v).phase = s.phase := rfl
@[simp] theorem State.setMem_mem (s : State) (v : List Host.Cell) : (s.setMem v).mem = v := rfl
@[simp] theorem State.setMem_csu (s : State) (v : List Host.Cell) : (s.setMem v).csu = s.csu := rfl
@[simp] theorem State.setMem_seq (s : State) (v : List Host.Cell) : (s.setMem v).seq = s.seq := rfl
@[simp] theorem State.setMem_line (s : State) (v : List Host.Cell) : (s.setMem v).line = s.line := rfl
@[simp] theorem State.setMem_pins (s : State) (v : List Host.Cell) : (s.setMem v).pins = s.pins := rfl
@[simp] theorem State.setMem_rdata (s : State) (v : List Host.Cell) : (s.setMem v).rdata = s.rdata := rfl
@[simp] theorem State.setMem_params (s : State) (v : List Host.Cell) : (s.setMem v).params = s.params := rfl
@[simp] theorem State.setMem_draws (s : State) (v : List Host.Cell) : (s.setMem v).draws = s.draws := rfl
@[simp] theorem State.setMem_script (s : State) (v : List Host.Cell) : (s.setMem v).script = s.script := rfl
@[simp] theorem State.setMem_lateReady (s : State) (v : List Host.Cell) : (s.setMem v).lateReady = s.lateReady := rfl

/-! ## State.setCsu -/

@[simp] theorem State.setCsu_ctrl (s : State) (v : Csu) : (s.setCsu v).ctrl = s.ctrl := rfl
@[simp] theorem State.setCsu_stat (s : State) (v : Csu) : (s.setCsu v).stat = s.stat := rfl
@[simp] theorem State.setCsu_rc (s : State) (v : Csu) : (s.setCsu v).rc = s.rc := rfl
@[simp] theorem State.setCsu_regs (s : State) (v : Csu) : (s.setCsu v).regs = s.regs := rfl
@[simp] theorem State.setCsu_res (s : State) (v : Csu) : (s.setCsu v).res = s.res := rfl
@[simp] theorem State.setCsu_rxn (s : State) (v : Csu) : (s.setCsu v).rxn = s.rxn := rfl
@[simp] theorem State.setCsu_phase (s : State) (v : Csu) : (s.setCsu v).phase = s.phase := rfl
@[simp] theorem State.setCsu_mem (s : State) (v : Csu) : (s.setCsu v).mem = s.mem := rfl
@[simp] theorem State.setCsu_csu (s : State) (v : Csu) : (s.setCsu v).csu = v := rfl
@[simp] theorem State.setCsu_seq (s : State) (v : Csu) : (s.setCsu v).seq = s.seq := rfl
@[simp] theorem State.setCsu_line (s : State) (v : Csu) : (s.setCsu v).line = s.line := rfl
@[simp] theorem State.setCsu_pins (s : State) (v : Csu) : (s.setCsu v).pins = s.pins := rfl
@[simp] theorem State.setCsu_rdata (s : State) (v : Csu) : (s.setCsu v).rdata = s.rdata := rfl
@[simp] theorem State.setCsu_params (s : State) (v : Csu) : (s.setCsu v).params = s.params := rfl
@[simp] theorem State.setCsu_draws (s : State) (v : Csu) : (s.setCsu v).draws = s.draws := rfl
@[simp] theorem State.setCsu_script (s : State) (v : Csu) : (s.setCsu v).script = s.script := rfl
@[simp] theorem State.setCsu_lateReady (s : State) (v : Csu) : (s.setCsu v).lateReady = s.lateReady := rfl

/-! ## State.setSeq -/

@[simp] theorem State.setSeq_ctrl (s : State) (v : Seq) : (s.setSeq v).ctrl = s.ctrl := rfl
@[simp] theorem State.setSeq_stat (s : State) (v : Seq) : (s.setSeq v).stat = s.stat := rfl
@[simp] theorem State.setSeq_rc (s : State) (v : Seq) : (s.setSeq v).rc = s.rc := rfl
@[simp] theorem State.setSeq_regs (s : State) (v : Seq) : (s.setSeq v).regs = s.regs := rfl
@[simp] theorem State.setSeq_res (s : State) (v : Seq) : (s.setSeq v).res = s.res := rfl
@[simp] theorem State.setSeq_rxn (s : State) (v : Seq) : (s.setSeq v).rxn = s.rxn := rfl
@[simp] theorem State.setSeq_phase (s : State) (v : Seq) : (s.setSeq v).phase = s.phase := rfl
@[simp] theorem State.setSeq_mem (s : State) (v : Seq) : (s.setSeq v).mem = s.mem := rfl
@[simp] theorem State.setSeq_csu (s : State) (v : Seq) : (s.setSeq v).csu = s.csu := rfl
@[simp] theorem State.setSeq_seq (s : State) (v : Seq) : (s.setSeq v).seq = v := rfl
@[simp] theorem State.setSeq_line (s : State) (v : Seq) : (s.setSeq v).line = s.line := rfl
@[simp] theorem State.setSeq_pins (s : State) (v : Seq) : (s.setSeq v).pins = s.pins := rfl
@[simp] theorem State.setSeq_rdata (s : State) (v : Seq) : (s.setSeq v).rdata = s.rdata := rfl
@[simp] theorem State.setSeq_params (s : State) (v : Seq) : (s.setSeq v).params = s.params := rfl
@[simp] theorem State.setSeq_draws (s : State) (v : Seq) : (s.setSeq v).draws = s.draws := rfl
@[simp] theorem State.setSeq_script (s : State) (v : Seq) : (s.setSeq v).script = s.script := rfl
@[simp] theorem State.setSeq_lateReady (s : State) (v : Seq) : (s.setSeq v).lateReady = s.lateReady := rfl

/-! ## State.setLine -/

@[simp] theorem State.setLine_ctrl (s : State) (v : Line) : (s.setLine v).ctrl = s.ctrl := rfl
@[simp] theorem State.setLine_stat (s : State) (v : Line) : (s.setLine v).stat = s.stat := rfl
@[simp] theorem State.setLine_rc (s : State) (v : Line) : (s.setLine v).rc = s.rc := rfl
@[simp] theorem State.setLine_regs (s : State) (v : Line) : (s.setLine v).regs = s.regs := rfl
@[simp] theorem State.setLine_res (s : State) (v : Line) : (s.setLine v).res = s.res := rfl
@[simp] theorem State.setLine_rxn (s : State) (v : Line) : (s.setLine v).rxn = s.rxn := rfl
@[simp] theorem State.setLine_phase (s : State) (v : Line) : (s.setLine v).phase = s.phase := rfl
@[simp] theorem State.setLine_mem (s : State) (v : Line) : (s.setLine v).mem = s.mem := rfl
@[simp] theorem State.setLine_csu (s : State) (v : Line) : (s.setLine v).csu = s.csu := rfl
@[simp] theorem State.setLine_seq (s : State) (v : Line) : (s.setLine v).seq = s.seq := rfl
@[simp] theorem State.setLine_line (s : State) (v : Line) : (s.setLine v).line = v := rfl
@[simp] theorem State.setLine_pins (s : State) (v : Line) : (s.setLine v).pins = s.pins := rfl
@[simp] theorem State.setLine_rdata (s : State) (v : Line) : (s.setLine v).rdata = s.rdata := rfl
@[simp] theorem State.setLine_params (s : State) (v : Line) : (s.setLine v).params = s.params := rfl
@[simp] theorem State.setLine_draws (s : State) (v : Line) : (s.setLine v).draws = s.draws := rfl
@[simp] theorem State.setLine_script (s : State) (v : Line) : (s.setLine v).script = s.script := rfl
@[simp] theorem State.setLine_lateReady (s : State) (v : Line) : (s.setLine v).lateReady = s.lateReady := rfl

/-! ## State.setPins -/

@[simp] theorem State.setPins_ctrl (s : State) (v : Pins) : (s.setPins v).ctrl = s.ctrl := rfl
@[simp] theorem State.setPins_stat (s : State) (v : Pins) : (s.setPins v).stat = s.stat := rfl
@[simp] theorem State.setPins_rc (s : State) (v : Pins) : (s.setPins v).rc = s.rc := rfl
@[simp] theorem State.setPins_regs (s : State) (v : Pins) : (s.setPins v).regs = s.regs := rfl
@[simp] theorem State.setPins_res (s : State) (v : Pins) : (s.setPins v).res = s.res := rfl
@[simp] theorem State.setPins_rxn (s : State) (v : Pins) : (s.setPins v).rxn = s.rxn := rfl
@[simp] theorem State.setPins_phase (s : State) (v : Pins) : (s.setPins v).phase = s.phase := rfl
@[simp] theorem State.setPins_mem (s : State) (v : Pins) : (s.setPins v).mem = s.mem := rfl
@[simp] theorem State.setPins_csu (s : State) (v : Pins) : (s.setPins v).csu = s.csu := rfl
@[simp] theorem State.setPins_seq (s : State) (v : Pins) : (s.setPins v).seq = s.seq := rfl
@[simp] theorem State.setPins_line (s : State) (v : Pins) : (s.setPins v).line = s.line := rfl
@[simp] theorem State.setPins_pins (s : State) (v : Pins) : (s.setPins v).pins = v := rfl
@[simp] theorem State.setPins_rdata (s : State) (v : Pins) : (s.setPins v).rdata = s.rdata := rfl
@[simp] theorem State.setPins_params (s : State) (v : Pins) : (s.setPins v).params = s.params := rfl
@[simp] theorem State.setPins_draws (s : State) (v : Pins) : (s.setPins v).draws = s.draws := rfl
@[simp] theorem State.setPins_script (s : State) (v : Pins) : (s.setPins v).script = s.script := rfl
@[simp] theorem State.setPins_lateReady (s : State) (v : Pins) : (s.setPins v).lateReady = s.lateReady := rfl

/-! ## State.setRdata -/

@[simp] theorem State.setRdata_ctrl (s : State) (v : Option Byte) : (s.setRdata v).ctrl = s.ctrl := rfl
@[simp] theorem State.setRdata_stat (s : State) (v : Option Byte) : (s.setRdata v).stat = s.stat := rfl
@[simp] theorem State.setRdata_rc (s : State) (v : Option Byte) : (s.setRdata v).rc = s.rc := rfl
@[simp] theorem State.setRdata_regs (s : State) (v : Option Byte) : (s.setRdata v).regs = s.regs := rfl
@[simp] theorem State.setRdata_res (s : State) (v : Option Byte) : (s.setRdata v).res = s.res := rfl
@[simp] theorem State.setRdata_rxn (s : State) (v : Option Byte) : (s.setRdata v).rxn = s.rxn := rfl
@[simp] theorem State.setRdata_phase (s : State) (v : Option Byte) : (s.setRdata v).phase = s.phase := rfl
@[simp] theorem State.setRdata_mem (s : State) (v : Option Byte) : (s.setRdata v).mem = s.mem := rfl
@[simp] theorem State.setRdata_csu (s : State) (v : Option Byte) : (s.setRdata v).csu = s.csu := rfl
@[simp] theorem State.setRdata_seq (s : State) (v : Option Byte) : (s.setRdata v).seq = s.seq := rfl
@[simp] theorem State.setRdata_line (s : State) (v : Option Byte) : (s.setRdata v).line = s.line := rfl
@[simp] theorem State.setRdata_pins (s : State) (v : Option Byte) : (s.setRdata v).pins = s.pins := rfl
@[simp] theorem State.setRdata_rdata (s : State) (v : Option Byte) : (s.setRdata v).rdata = v := rfl
@[simp] theorem State.setRdata_params (s : State) (v : Option Byte) : (s.setRdata v).params = s.params := rfl
@[simp] theorem State.setRdata_draws (s : State) (v : Option Byte) : (s.setRdata v).draws = s.draws := rfl
@[simp] theorem State.setRdata_script (s : State) (v : Option Byte) : (s.setRdata v).script = s.script := rfl
@[simp] theorem State.setRdata_lateReady (s : State) (v : Option Byte) : (s.setRdata v).lateReady = s.lateReady := rfl

/-! ## State.finish -/

@[simp] theorem State.finish_ctrl (s : State) (c : ResultCode) : (s.finish c).ctrl = s.ctrl := rfl
@[simp] theorem State.finish_stat (s : State) (c : ResultCode) :
    (s.finish c).stat = { s.stat with busy := false, done := true } := rfl
@[simp] theorem State.finish_rc (s : State) (c : ResultCode) : (s.finish c).rc = c := rfl
@[simp] theorem State.finish_regs (s : State) (c : ResultCode) : (s.finish c).regs = s.regs := rfl
@[simp] theorem State.finish_res (s : State) (c : ResultCode) : (s.finish c).res = s.res := rfl
@[simp] theorem State.finish_rxn (s : State) (c : ResultCode) : (s.finish c).rxn = s.rxn := rfl
@[simp] theorem State.finish_phase (s : State) (c : ResultCode) : (s.finish c).phase = .idle := rfl
@[simp] theorem State.finish_mem (s : State) (c : ResultCode) : (s.finish c).mem = s.mem := rfl
@[simp] theorem State.finish_csu (s : State) (c : ResultCode) : (s.finish c).csu = s.csu := rfl
@[simp] theorem State.finish_seq (s : State) (c : ResultCode) : (s.finish c).seq = { s.seq with dly := 0 } := rfl
@[simp] theorem State.finish_line (s : State) (c : ResultCode) : (s.finish c).line = s.line := rfl
@[simp] theorem State.finish_pins (s : State) (c : ResultCode) : (s.finish c).pins = s.pins := rfl
@[simp] theorem State.finish_rdata (s : State) (c : ResultCode) : (s.finish c).rdata = s.rdata := rfl
@[simp] theorem State.finish_params (s : State) (c : ResultCode) : (s.finish c).params = s.params := rfl
@[simp] theorem State.finish_draws (s : State) (c : ResultCode) : (s.finish c).draws = s.draws := rfl
@[simp] theorem State.finish_script (s : State) (c : ResultCode) : (s.finish c).script = s.script := rfl
@[simp] theorem State.finish_lateReady (s : State) (c : ResultCode) : (s.finish c).lateReady = s.lateReady := rfl

/-! ## State.accept -/

@[simp] theorem State.accept_ctrl (s : State) (c : Byte) : (s.accept c).ctrl = s.ctrl := rfl
@[simp] theorem State.accept_stat (s : State) (c : Byte) :
    (s.accept c).stat = { s.stat with busy := true, done := false } := rfl
@[simp] theorem State.accept_rc (s : State) (c : Byte) : (s.accept c).rc = s.rc := rfl
@[simp] theorem State.accept_regs (s : State) (c : Byte) : (s.accept c).regs = s.regs := rfl
@[simp] theorem State.accept_res (s : State) (c : Byte) : (s.accept c).res = s.res := rfl
@[simp] theorem State.accept_rxn (s : State) (c : Byte) : (s.accept c).rxn = s.rxn := rfl
@[simp] theorem State.accept_phase (s : State) (c : Byte) : (s.accept c).phase = .localCmd := rfl
@[simp] theorem State.accept_mem (s : State) (c : Byte) : (s.accept c).mem = s.mem := rfl
@[simp] theorem State.accept_csu (s : State) (c : Byte) : (s.accept c).csu = s.csu := rfl
@[simp] theorem State.accept_seq (s : State) (c : Byte) :
    (s.accept c).seq = { s.seq with cmd := c, rxmode := s.ctrl.rxmode, dly := 0 } := rfl
@[simp] theorem State.accept_line (s : State) (c : Byte) : (s.accept c).line = s.line := rfl
@[simp] theorem State.accept_pins (s : State) (c : Byte) : (s.accept c).pins = s.pins := rfl
@[simp] theorem State.accept_rdata (s : State) (c : Byte) : (s.accept c).rdata = s.rdata := rfl
@[simp] theorem State.accept_params (s : State) (c : Byte) : (s.accept c).params = s.params := rfl
@[simp] theorem State.accept_draws (s : State) (c : Byte) : (s.accept c).draws = s.draws := rfl
@[simp] theorem State.accept_script (s : State) (c : Byte) : (s.accept c).script = s.script := rfl
@[simp] theorem State.accept_lateReady (s : State) (c : Byte) : (s.accept c).lateReady = s.lateReady := rfl

/-! ## State.enter -/

@[simp] theorem State.enter_ctrl (s : State) (p : Phase) : (s.enter p).ctrl = s.ctrl := rfl
@[simp] theorem State.enter_stat (s : State) (p : Phase) : (s.enter p).stat = s.stat := rfl
@[simp] theorem State.enter_rc (s : State) (p : Phase) : (s.enter p).rc = s.rc := rfl
@[simp] theorem State.enter_regs (s : State) (p : Phase) : (s.enter p).regs = s.regs := rfl
@[simp] theorem State.enter_res (s : State) (p : Phase) : (s.enter p).res = s.res := rfl
@[simp] theorem State.enter_rxn (s : State) (p : Phase) : (s.enter p).rxn = s.rxn := rfl
@[simp] theorem State.enter_phase (s : State) (p : Phase) : (s.enter p).phase = p := rfl
@[simp] theorem State.enter_mem (s : State) (p : Phase) : (s.enter p).mem = s.mem := rfl
@[simp] theorem State.enter_csu (s : State) (p : Phase) : (s.enter p).csu = s.csu := rfl
@[simp] theorem State.enter_seq (s : State) (p : Phase) : (s.enter p).seq = { s.seq with dly := 0 } := rfl
@[simp] theorem State.enter_line (s : State) (p : Phase) : (s.enter p).line = s.line := rfl
@[simp] theorem State.enter_pins (s : State) (p : Phase) : (s.enter p).pins = s.pins := rfl
@[simp] theorem State.enter_rdata (s : State) (p : Phase) : (s.enter p).rdata = s.rdata := rfl
@[simp] theorem State.enter_params (s : State) (p : Phase) : (s.enter p).params = s.params := rfl
@[simp] theorem State.enter_draws (s : State) (p : Phase) : (s.enter p).draws = s.draws := rfl
@[simp] theorem State.enter_script (s : State) (p : Phase) : (s.enter p).script = s.script := rfl
@[simp] theorem State.enter_lateReady (s : State) (p : Phase) : (s.enter p).lateReady = s.lateReady := rfl

/-! ## State.beginCycle -/

@[simp] theorem State.beginCycle_ctrl (s : State) : s.beginCycle.ctrl = s.ctrl := rfl
@[simp] theorem State.beginCycle_stat (s : State) : s.beginCycle.stat = s.stat := rfl
@[simp] theorem State.beginCycle_rc (s : State) : s.beginCycle.rc = s.rc := rfl
@[simp] theorem State.beginCycle_regs (s : State) : s.beginCycle.regs = s.regs := rfl
@[simp] theorem State.beginCycle_res (s : State) : s.beginCycle.res = s.res := rfl
@[simp] theorem State.beginCycle_rxn (s : State) : s.beginCycle.rxn = s.rxn := rfl
@[simp] theorem State.beginCycle_phase (s : State) : s.beginCycle.phase = s.phase := rfl
@[simp] theorem State.beginCycle_mem (s : State) : s.beginCycle.mem = s.mem := rfl
@[simp] theorem State.beginCycle_csu (s : State) : s.beginCycle.csu = s.csu := rfl
@[simp] theorem State.beginCycle_seq (s : State) : s.beginCycle.seq = s.seq := rfl
@[simp] theorem State.beginCycle_line (s : State) : s.beginCycle.line = s.line := rfl
@[simp] theorem State.beginCycle_pins (s : State) : s.beginCycle.pins = Pins.quiet := rfl
@[simp] theorem State.beginCycle_rdata (s : State) : s.beginCycle.rdata = none := rfl
@[simp] theorem State.beginCycle_params (s : State) : s.beginCycle.params = s.params := rfl
@[simp] theorem State.beginCycle_draws (s : State) : s.beginCycle.draws = s.draws := rfl
@[simp] theorem State.beginCycle_script (s : State) : s.beginCycle.script = s.script := rfl
@[simp] theorem State.beginCycle_lateReady (s : State) : s.beginCycle.lateReady = s.lateReady := rfl

/-! ## State.endCycle -/

@[simp] theorem State.endCycle_ctrl (s : State) : s.endCycle.ctrl = s.ctrl := rfl
@[simp] theorem State.endCycle_stat (s : State) : s.endCycle.stat = s.stat := rfl
@[simp] theorem State.endCycle_rc (s : State) : s.endCycle.rc = s.rc := rfl
@[simp] theorem State.endCycle_regs (s : State) : s.endCycle.regs = s.regs := rfl
@[simp] theorem State.endCycle_res (s : State) : s.endCycle.res = s.res := rfl
@[simp] theorem State.endCycle_rxn (s : State) : s.endCycle.rxn = s.rxn := rfl
@[simp] theorem State.endCycle_phase (s : State) : s.endCycle.phase = s.phase := rfl
@[simp] theorem State.endCycle_mem (s : State) : s.endCycle.mem = s.mem := rfl
@[simp] theorem State.endCycle_csu (s : State) : s.endCycle.csu = s.csu := rfl
@[simp] theorem State.endCycle_seq (s : State) : s.endCycle.seq = s.seq := rfl
@[simp] theorem State.endCycle_line (s : State) : s.endCycle.line = { s.line with fifo := s.line.fifo ++ s.now.rx } := rfl
@[simp] theorem State.endCycle_pins (s : State) : s.endCycle.pins = s.pins := rfl
@[simp] theorem State.endCycle_rdata (s : State) : s.endCycle.rdata = s.rdata := rfl
@[simp] theorem State.endCycle_params (s : State) : s.endCycle.params = s.params := rfl
@[simp] theorem State.endCycle_draws (s : State) : s.endCycle.draws = s.draws + Config.drawsPerCycle := rfl
@[simp] theorem State.endCycle_script (s : State) : s.endCycle.script = s.script.tail := rfl
@[simp] theorem State.endCycle_lateReady (s : State) : s.endCycle.lateReady = s.lateReady := rfl

/-! ## State.uartFlush -/

@[simp] theorem State.uartFlush_ctrl (s : State) : s.uartFlush.ctrl = s.ctrl := rfl
@[simp] theorem State.uartFlush_stat (s : State) : s.uartFlush.stat = s.stat := rfl
@[simp] theorem State.uartFlush_rc (s : State) : s.uartFlush.rc = s.rc := rfl
@[simp] theorem State.uartFlush_regs (s : State) : s.uartFlush.regs = s.regs := rfl
@[simp] theorem State.uartFlush_res (s : State) : s.uartFlush.res = s.res := rfl
@[simp] theorem State.uartFlush_rxn (s : State) : s.uartFlush.rxn = s.rxn := rfl
@[simp] theorem State.uartFlush_phase (s : State) : s.uartFlush.phase = s.phase := rfl
@[simp] theorem State.uartFlush_mem (s : State) : s.uartFlush.mem = s.mem := rfl
@[simp] theorem State.uartFlush_csu (s : State) : s.uartFlush.csu = s.csu := rfl
@[simp] theorem State.uartFlush_seq (s : State) : s.uartFlush.seq = s.seq := rfl
@[simp] theorem State.uartFlush_line (s : State) : s.uartFlush.line = { s.line with fifo := [] } := rfl
@[simp] theorem State.uartFlush_pins (s : State) : s.uartFlush.pins = { s.pins with rxFlush := true } := rfl
@[simp] theorem State.uartFlush_rdata (s : State) : s.uartFlush.rdata = s.rdata := rfl
@[simp] theorem State.uartFlush_params (s : State) : s.uartFlush.params = s.params := rfl
@[simp] theorem State.uartFlush_draws (s : State) : s.uartFlush.draws = s.draws := rfl
@[simp] theorem State.uartFlush_script (s : State) : s.uartFlush.script = s.script := rfl
@[simp] theorem State.uartFlush_lateReady (s : State) : s.uartFlush.lateReady = s.lateReady := rfl

/-! ## State.uartSend -/

@[simp] theorem State.uartSend_ctrl (s : State) (b : Byte) : (s.uartSend b).ctrl = s.ctrl := rfl
@[simp] theorem State.uartSend_stat (s : State) (b : Byte) : (s.uartSend b).stat = s.stat := rfl
@[simp] theorem State.uartSend_rc (s : State) (b : Byte) : (s.uartSend b).rc = s.rc := rfl
@[simp] theorem State.uartSend_regs (s : State) (b : Byte) : (s.uartSend b).regs = s.regs := rfl
@[simp] theorem State.uartSend_res (s : State) (b : Byte) : (s.uartSend b).res = s.res := rfl
@[simp] theorem State.uartSend_rxn (s : State) (b : Byte) : (s.uartSend b).rxn = s.rxn := rfl
@[simp] theorem State.uartSend_phase (s : State) (b : Byte) : (s.uartSend b).phase = s.phase := rfl
@[simp] theorem State.uartSend_mem (s : State) (b : Byte) : (s.uartSend b).mem = s.mem := rfl
@[simp] theorem State.uartSend_csu (s : State) (b : Byte) : (s.uartSend b).csu = s.csu := rfl
@[simp] theorem State.uartSend_seq (s : State) (b : Byte) : (s.uartSend b).seq = s.seq := rfl
@[simp] theorem State.uartSend_line (s : State) (b : Byte) :
    (s.uartSend b).line = { s.line with txlog := if s.now.txReady then s.line.txlog ++ [b] else s.line.txlog } := rfl
@[simp] theorem State.uartSend_pins (s : State) (b : Byte) : (s.uartSend b).pins = { s.pins with tx := some b } := rfl
@[simp] theorem State.uartSend_rdata (s : State) (b : Byte) : (s.uartSend b).rdata = s.rdata := rfl
@[simp] theorem State.uartSend_params (s : State) (b : Byte) : (s.uartSend b).params = s.params := rfl
@[simp] theorem State.uartSend_draws (s : State) (b : Byte) : (s.uartSend b).draws = s.draws := rfl
@[simp] theorem State.uartSend_script (s : State) (b : Byte) : (s.uartSend b).script = s.script := rfl
@[simp] theorem State.uartSend_lateReady (s : State) (b : Byte) : (s.uartSend b).lateReady = s.lateReady := rfl

/-! ## State.uartPop -/

@[simp] theorem State.uartPop_ctrl (s : State) : s.uartPop.ctrl = s.ctrl := rfl
@[simp] theorem State.uartPop_stat (s : State) : s.uartPop.stat = s.stat := rfl
@[simp] theorem State.uartPop_rc (s : State) : s.uartPop.rc = s.rc := rfl
@[simp] theorem State.uartPop_regs (s : State) : s.uartPop.regs = s.regs := rfl
@[simp] theorem State.uartPop_res (s : State) : s.uartPop.res = s.res := rfl
@[simp] theorem State.uartPop_rxn (s : State) : s.uartPop.rxn = s.rxn := rfl
@[simp] theorem State.uartPop_phase (s : State) : s.uartPop.phase = s.phase := rfl
@[simp] theorem State.uartPop_mem (s : State) : s.uartPop.mem = s.mem := rfl
@[simp] theorem State.uartPop_csu (s : State) : s.uartPop.csu = s.csu := rfl
@[simp] theorem State.uartPop_seq (s : State) : s.uartPop.seq = s.seq := rfl
@[simp] theorem State.uartPop_line (s : State) : s.uartPop.line = { s.line with fifo := s.line.fifo.tail } := rfl
@[simp] theorem State.uartPop_pins (s : State) : s.uartPop.pins = { s.pins with rxPop := true } := rfl
@[simp] theorem State.uartPop_rdata (s : State) : s.uartPop.rdata = s.rdata := rfl
@[simp] theorem State.uartPop_params (s : State) : s.uartPop.params = s.params := rfl
@[simp] theorem State.uartPop_draws (s : State) : s.uartPop.draws = s.draws := rfl
@[simp] theorem State.uartPop_script (s : State) : s.uartPop.script = s.script := rfl
@[simp] theorem State.uartPop_lateReady (s : State) : s.uartPop.lateReady = s.lateReady := rfl

/-! ## State.loadFrame -/

@[simp] theorem State.loadFrame_ctrl (s : State) (f : List Byte) : (s.loadFrame f).ctrl = s.ctrl := rfl
@[simp] theorem State.loadFrame_stat (s : State) (f : List Byte) : (s.loadFrame f).stat = s.stat := rfl
@[simp] theorem State.loadFrame_rc (s : State) (f : List Byte) : (s.loadFrame f).rc = s.rc := rfl
@[simp] theorem State.loadFrame_regs (s : State) (f : List Byte) : (s.loadFrame f).regs = s.regs := rfl
@[simp] theorem State.loadFrame_res (s : State) (f : List Byte) :
    (s.loadFrame f).res = { s.res with csum := f.getLastD 0, txn := BitVec.ofNat 16 f.length } := rfl
@[simp] theorem State.loadFrame_rxn (s : State) (f : List Byte) : (s.loadFrame f).rxn = s.rxn := rfl
@[simp] theorem State.loadFrame_phase (s : State) (f : List Byte) : (s.loadFrame f).phase = s.phase := rfl
@[simp] theorem State.loadFrame_mem (s : State) (f : List Byte) :
    (s.loadFrame f).mem = Mem.writeBytes s.mem Config.txbBase f := rfl
@[simp] theorem State.loadFrame_csu (s : State) (f : List Byte) : (s.loadFrame f).csu = Csu.stream (f.dropLast.drop 2) := rfl
@[simp] theorem State.loadFrame_seq (s : State) (f : List Byte) : (s.loadFrame f).seq = s.seq := rfl
@[simp] theorem State.loadFrame_line (s : State) (f : List Byte) : (s.loadFrame f).line = s.line := rfl
@[simp] theorem State.loadFrame_pins (s : State) (f : List Byte) : (s.loadFrame f).pins = s.pins := rfl
@[simp] theorem State.loadFrame_rdata (s : State) (f : List Byte) : (s.loadFrame f).rdata = s.rdata := rfl
@[simp] theorem State.loadFrame_params (s : State) (f : List Byte) : (s.loadFrame f).params = s.params := rfl
@[simp] theorem State.loadFrame_draws (s : State) (f : List Byte) : (s.loadFrame f).draws = s.draws := rfl
@[simp] theorem State.loadFrame_script (s : State) (f : List Byte) : (s.loadFrame f).script = s.script := rfl
@[simp] theorem State.loadFrame_lateReady (s : State) (f : List Byte) : (s.loadFrame f).lateReady = s.lateReady := rfl

/-! ## State.putQb -/

@[simp] theorem State.putQb_ctrl (s : State) (p : List Byte) : (s.putQb p).ctrl = s.ctrl := rfl
@[simp] theorem State.putQb_stat (s : State) (p : List Byte) : (s.putQb p).stat = s.stat := rfl
@[simp] theorem State.putQb_rc (s : State) (p : List Byte) : (s.putQb p).rc = s.rc := rfl
@[simp] theorem State.putQb_regs (s : State) (p : List Byte) : (s.putQb p).regs = s.regs := rfl
@[simp] theorem State.putQb_res (s : State) (p : List Byte) :
    (s.putQb p).res = { s.res with qn := BitVec.ofNat 8 p.length } := rfl
@[simp] theorem State.putQb_rxn (s : State) (p : List Byte) : (s.putQb p).rxn = s.rxn := rfl
@[simp] theorem State.putQb_phase (s : State) (p : List Byte) : (s.putQb p).phase = s.phase := rfl
@[simp] theorem State.putQb_mem (s : State) (p : List Byte) :
    (s.putQb p).mem = Mem.writeBytes (Mem.forget s.mem Config.qbBase Config.byteBufDepth) Config.qbBase p := rfl
@[simp] theorem State.putQb_csu (s : State) (p : List Byte) : (s.putQb p).csu = s.csu := rfl
@[simp] theorem State.putQb_seq (s : State) (p : List Byte) : (s.putQb p).seq = s.seq := rfl
@[simp] theorem State.putQb_line (s : State) (p : List Byte) : (s.putQb p).line = s.line := rfl
@[simp] theorem State.putQb_pins (s : State) (p : List Byte) : (s.putQb p).pins = s.pins := rfl
@[simp] theorem State.putQb_rdata (s : State) (p : List Byte) : (s.putQb p).rdata = s.rdata := rfl
@[simp] theorem State.putQb_params (s : State) (p : List Byte) : (s.putQb p).params = s.params := rfl
@[simp] theorem State.putQb_draws (s : State) (p : List Byte) : (s.putQb p).draws = s.draws := rfl
@[simp] theorem State.putQb_script (s : State) (p : List Byte) : (s.putQb p).script = s.script := rfl
@[simp] theorem State.putQb_lateReady (s : State) (p : List Byte) : (s.putQb p).lateReady = s.lateReady := rfl

/-! ## State.forgetQb -/

@[simp] theorem State.forgetQb_ctrl (s : State) : s.forgetQb.ctrl = s.ctrl := rfl
@[simp] theorem State.forgetQb_stat (s : State) : s.forgetQb.stat = s.stat := rfl
@[simp] theorem State.forgetQb_rc (s : State) : s.forgetQb.rc = s.rc := rfl
@[simp] theorem State.forgetQb_regs (s : State) : s.forgetQb.regs = s.regs := rfl
@[simp] theorem State.forgetQb_res (s : State) : s.forgetQb.res = s.res := rfl
@[simp] theorem State.forgetQb_rxn (s : State) : s.forgetQb.rxn = s.rxn := rfl
@[simp] theorem State.forgetQb_phase (s : State) : s.forgetQb.phase = s.phase := rfl
@[simp] theorem State.forgetQb_mem (s : State) : s.forgetQb.mem = Mem.forget s.mem Config.qbBase Config.byteBufDepth := rfl
@[simp] theorem State.forgetQb_csu (s : State) : s.forgetQb.csu = s.csu := rfl
@[simp] theorem State.forgetQb_seq (s : State) : s.forgetQb.seq = s.seq := rfl
@[simp] theorem State.forgetQb_line (s : State) : s.forgetQb.line = s.line := rfl
@[simp] theorem State.forgetQb_pins (s : State) : s.forgetQb.pins = s.pins := rfl
@[simp] theorem State.forgetQb_rdata (s : State) : s.forgetQb.rdata = s.rdata := rfl
@[simp] theorem State.forgetQb_params (s : State) : s.forgetQb.params = s.params := rfl
@[simp] theorem State.forgetQb_draws (s : State) : s.forgetQb.draws = s.draws := rfl
@[simp] theorem State.forgetQb_script (s : State) : s.forgetQb.script = s.script := rfl
@[simp] theorem State.forgetQb_lateReady (s : State) : s.forgetQb.lateReady = s.lateReady := rfl

/-! ## State.putStatus -/

@[simp] theorem State.putStatus_ctrl (s : State) (st : Status) : (s.putStatus st).ctrl = s.ctrl := rfl
@[simp] theorem State.putStatus_stat (s : State) (st : Status) : (s.putStatus st).stat = s.stat := rfl
@[simp] theorem State.putStatus_rc (s : State) (st : Status) : (s.putStatus st).rc = s.rc := rfl
@[simp] theorem State.putStatus_regs (s : State) (st : Status) : (s.putStatus st).regs = s.regs := rfl
@[simp] theorem State.putStatus_res (s : State) (st : Status) :
    (s.putStatus st).res = { s.res with rid := st.id, rerr := st.err, qn := BitVec.ofNat 8 st.params.length } := rfl
@[simp] theorem State.putStatus_rxn (s : State) (st : Status) : (s.putStatus st).rxn = s.rxn := rfl
@[simp] theorem State.putStatus_phase (s : State) (st : Status) : (s.putStatus st).phase = s.phase := rfl
@[simp] theorem State.putStatus_mem (s : State) (st : Status) :
    (s.putStatus st).mem = Mem.writeBytes (Mem.forget s.mem Config.qbBase Config.byteBufDepth) Config.qbBase st.params := rfl
@[simp] theorem State.putStatus_csu (s : State) (st : Status) : (s.putStatus st).csu = s.csu := rfl
@[simp] theorem State.putStatus_seq (s : State) (st : Status) : (s.putStatus st).seq = s.seq := rfl
@[simp] theorem State.putStatus_line (s : State) (st : Status) : (s.putStatus st).line = s.line := rfl
@[simp] theorem State.putStatus_pins (s : State) (st : Status) : (s.putStatus st).pins = s.pins := rfl
@[simp] theorem State.putStatus_rdata (s : State) (st : Status) : (s.putStatus st).rdata = s.rdata := rfl
@[simp] theorem State.putStatus_params (s : State) (st : Status) : (s.putStatus st).params = s.params := rfl
@[simp] theorem State.putStatus_draws (s : State) (st : Status) : (s.putStatus st).draws = s.draws := rfl
@[simp] theorem State.putStatus_script (s : State) (st : Status) : (s.putStatus st).script = s.script := rfl
@[simp] theorem State.putStatus_lateReady (s : State) (st : Status) : (s.putStatus st).lateReady = s.lateReady := rfl

/-! ## State.setPingok -/

@[simp] theorem State.setPingok_ctrl (s : State) (b : Bool) : (s.setPingok b).ctrl = s.ctrl := rfl
@[simp] theorem State.setPingok_stat (s : State) (b : Bool) : (s.setPingok b).stat = { s.stat with pingok := b } := rfl
@[simp] theorem State.setPingok_rc (s : State) (b : Bool) : (s.setPingok b).rc = s.rc := rfl
@[simp] theorem State.setPingok_regs (s : State) (b : Bool) : (s.setPingok b).regs = s.regs := rfl
@[simp] theorem State.setPingok_res (s : State) (b : Bool) : (s.setPingok b).res = s.res := rfl
@[simp] theorem State.setPingok_rxn (s : State) (b : Bool) : (s.setPingok b).rxn = s.rxn := rfl
@[simp] theorem State.setPingok_phase (s : State) (b : Bool) : (s.setPingok b).phase = s.phase := rfl
@[simp] theorem State.setPingok_mem (s : State) (b : Bool) : (s.setPingok b).mem = s.mem := rfl
@[simp] theorem State.setPingok_csu (s : State) (b : Bool) : (s.setPingok b).csu = s.csu := rfl
@[simp] theorem State.setPingok_seq (s : State) (b : Bool) : (s.setPingok b).seq = s.seq := rfl
@[simp] theorem State.setPingok_line (s : State) (b : Bool) : (s.setPingok b).line = s.line := rfl
@[simp] theorem State.setPingok_pins (s : State) (b : Bool) : (s.setPingok b).pins = s.pins := rfl
@[simp] theorem State.setPingok_rdata (s : State) (b : Bool) : (s.setPingok b).rdata = s.rdata := rfl
@[simp] theorem State.setPingok_params (s : State) (b : Bool) : (s.setPingok b).params = s.params := rfl
@[simp] theorem State.setPingok_draws (s : State) (b : Bool) : (s.setPingok b).draws = s.draws := rfl
@[simp] theorem State.setPingok_script (s : State) (b : Bool) : (s.setPingok b).script = s.script := rfl
@[simp] theorem State.setPingok_lateReady (s : State) (b : Bool) : (s.setPingok b).lateReady = s.lateReady := rfl

/-! ## State.resetEdge (its read data is said by its definition) -/

@[simp] theorem State.resetEdge_ctrl (s : State) : s.resetEdge.ctrl = State.reset.ctrl := rfl
@[simp] theorem State.resetEdge_stat (s : State) : s.resetEdge.stat = State.reset.stat := rfl
@[simp] theorem State.resetEdge_rc (s : State) : s.resetEdge.rc = .ok := rfl
@[simp] theorem State.resetEdge_regs (s : State) : s.resetEdge.regs = State.reset.regs := rfl
@[simp] theorem State.resetEdge_res (s : State) : s.resetEdge.res = State.reset.res := rfl
@[simp] theorem State.resetEdge_rxn (s : State) : s.resetEdge.rxn = 0 := rfl
@[simp] theorem State.resetEdge_phase (s : State) : s.resetEdge.phase = .idle := rfl
@[simp] theorem State.resetEdge_mem (s : State) : s.resetEdge.mem = [] := rfl
@[simp] theorem State.resetEdge_csu (s : State) : s.resetEdge.csu = Csu.zero := rfl
@[simp] theorem State.resetEdge_seq (s : State) : s.resetEdge.seq = State.reset.seq := rfl
@[simp] theorem State.resetEdge_line (s : State) : s.resetEdge.line = s.line := rfl
@[simp] theorem State.resetEdge_pins (s : State) : s.resetEdge.pins = State.reset.pins := rfl
@[simp] theorem State.resetEdge_params (s : State) : s.resetEdge.params = s.params := rfl
@[simp] theorem State.resetEdge_draws (s : State) : s.resetEdge.draws = s.draws := rfl
@[simp] theorem State.resetEdge_script (s : State) : s.resetEdge.script = s.script := rfl
@[simp] theorem State.resetEdge_lateReady (s : State) : s.resetEdge.lateReady = s.lateReady := rfl

/-! ## The cycle's inputs do not depend on the rest of the state -/

@[simp] theorem State.setCtrl_now (s : State) (v : Ctrl) : (s.setCtrl v).now = s.now := rfl
@[simp] theorem State.setStat_now (s : State) (v : Stat) : (s.setStat v).now = s.now := rfl
@[simp] theorem State.setRc_now (s : State) (v : ResultCode) : (s.setRc v).now = s.now := rfl
@[simp] theorem State.setRegs_now (s : State) (v : OperandRegs) : (s.setRegs v).now = s.now := rfl
@[simp] theorem State.setRes_now (s : State) (v : ResultRegs) : (s.setRes v).now = s.now := rfl
@[simp] theorem State.setRxn_now (s : State) (v : Half) : (s.setRxn v).now = s.now := rfl
@[simp] theorem State.setPhase_now (s : State) (v : Phase) : (s.setPhase v).now = s.now := rfl
@[simp] theorem State.setMem_now (s : State) (v : List Host.Cell) : (s.setMem v).now = s.now := rfl
@[simp] theorem State.setCsu_now (s : State) (v : Csu) : (s.setCsu v).now = s.now := rfl
@[simp] theorem State.setSeq_now (s : State) (v : Seq) : (s.setSeq v).now = s.now := rfl
@[simp] theorem State.setLine_now (s : State) (v : Line) : (s.setLine v).now = s.now := rfl
@[simp] theorem State.setPins_now (s : State) (v : Pins) : (s.setPins v).now = s.now := rfl
@[simp] theorem State.setRdata_now (s : State) (v : Option Byte) : (s.setRdata v).now = s.now := rfl
@[simp] theorem State.finish_now (s : State) (c : ResultCode) : (s.finish c).now = s.now := rfl
@[simp] theorem State.accept_now (s : State) (c : Byte) : (s.accept c).now = s.now := rfl
@[simp] theorem State.enter_now (s : State) (p : Phase) : (s.enter p).now = s.now := rfl
@[simp] theorem State.beginCycle_now (s : State) : s.beginCycle.now = s.now := rfl
@[simp] theorem State.uartFlush_now (s : State) : s.uartFlush.now = s.now := rfl
@[simp] theorem State.uartSend_now (s : State) (b : Byte) : (s.uartSend b).now = s.now := rfl
@[simp] theorem State.uartPop_now (s : State) : s.uartPop.now = s.now := rfl
@[simp] theorem State.loadFrame_now (s : State) (f : List Byte) : (s.loadFrame f).now = s.now := rfl
@[simp] theorem State.putQb_now (s : State) (p : List Byte) : (s.putQb p).now = s.now := rfl
@[simp] theorem State.forgetQb_now (s : State) : s.forgetQb.now = s.now := rfl
@[simp] theorem State.putStatus_now (s : State) (st : Status) : (s.putStatus st).now = s.now := rfl
@[simp] theorem State.setPingok_now (s : State) (b : Bool) : (s.setPingok b).now = s.now := rfl

end Sys2Proof.Machine
end

