-- ==== Sys2Proof/Laws/Mem.lean ====
section
/-! SUPPORT. Sys2Proof/Laws/Mem.lean: what each memory operation does to a read of one address, that each keeps the canonical form,
and that the form is canonical. -/

namespace Sys2Proof.Machine

open Host (Cell)

@[simp] theorem Mem.read_nil (a : Nat) : Mem.read [] a = none := rfl

theorem Mem.read_cons (c : Cell) (m : List Cell) (a : Nat) :
    Mem.read (c :: m) a = if c.1 = a then some c.2 else Mem.read m a := rfl

/-- A read after a write: the byte written at its address, the old byte elsewhere. -/
theorem Mem.read_write (m : List Cell) (a : Nat) (v : Byte) (x : Nat) :
    Mem.read (Mem.write m a v) x = if x = a then some v else Mem.read m x := by
  induction m with
  | nil => simp [Mem.write, Mem.read_cons, eq_comm]
  | cons c m ih =>
    unfold Mem.write
    by_cases hx : x = a
    · subst hx
      split
      · simp [Mem.read_cons]
      · split
        · simp [Mem.read_cons]
        · rename_i h
          simp [Mem.read_cons, ih, Ne.symm h]
    · have hx' : ¬ a = x := fun h => hx h.symm
      split
      · simp [Mem.read_cons, hx']
      · split
        · rename_i h
          simp [Mem.read_cons, hx', ← h]
        · simp [Mem.read_cons, ih, hx]

/-- A read after a sequence is stored from `a` on. -/
theorem Mem.read_writeBytes (m : List Cell) (a : Nat) (vs : List Byte) (x : Nat) :
    Mem.read (Mem.writeBytes m a vs) x = if a ≤ x ∧ x < a + vs.length then vs[x - a]? else Mem.read m x := by
  induction vs generalizing m a with
  | nil =>
    simp [Mem.writeBytes]
  | cons v vs ih =>
    rw [Mem.writeBytes, ih, Mem.read_write]
    by_cases hx : x = a
    · subst hx
      simp
    · by_cases hr : a + 1 ≤ x ∧ x < a + 1 + vs.length
      · have h' : a ≤ x ∧ x < a + (v :: vs).length := by simp; omega
        rw [if_pos hr, if_pos h']
        obtain ⟨k, hk⟩ : ∃ k, x - a = k + 1 := ⟨x - a - 1, by omega⟩
        have hk' : x - (a + 1) = k := by omega
        simp [hk, hk']
      · have h' : ¬ (a ≤ x ∧ x < a + (v :: vs).length) := by simp; omega
        rw [if_neg hr, if_neg hx, if_neg h']

/-- A read after `n` entries from `lo` on became UNSPECIFIED. -/
theorem Mem.read_forget (m : List Cell) (lo n x : Nat) :
    Mem.read (Mem.forget m lo n) x = if lo ≤ x ∧ x < lo + n then none else Mem.read m x := by
  induction m with
  | nil => simp [Mem.forget]
  | cons c m ih =>
    have hf : Mem.forget (c :: m) lo n =
        if c.1 < lo || lo + n ≤ c.1 then c :: Mem.forget m lo n else Mem.forget m lo n := by
      simp [Mem.forget, List.filter_cons]
    rw [hf]
    by_cases hc : (c.1 < lo || lo + n ≤ c.1) = true
    · rw [if_pos hc, Mem.read_cons, ih, Mem.read_cons]
      simp only [Bool.or_eq_true, decide_eq_true_eq] at hc
      by_cases hx : c.1 = x
      · have : ¬ (lo ≤ x ∧ x < lo + n) := by omega
        simp [hx, this]
      · simp [hx]
    · rw [if_neg hc, ih, Mem.read_cons]
      simp only [Bool.or_eq_true, decide_eq_true_eq, not_or] at hc
      by_cases hx : c.1 = x
      · have : lo ≤ x ∧ x < lo + n := by omega
        simp [this]
      · simp [hx]

/-! ## The canonical form -/

theorem Mem.mem_write {m : List Cell} {a : Nat} {v : Byte} {c : Cell} (h : c ∈ Mem.write m a v) :
    c = (a, v) ∨ c ∈ m := by
  induction m with
  | nil => simpa [Mem.write] using h
  | cons d m ih =>
    unfold Mem.write at h
    split at h
    · simpa using h
    · split at h
      · rcases List.mem_cons.1 h with h | h
        · exact .inl h
        · exact .inr (List.mem_cons_of_mem _ h)
      · rcases List.mem_cons.1 h with h | h
        · exact .inr (h ▸ List.mem_cons_self)
        · exact (ih h).imp_right (List.mem_cons_of_mem _)

theorem Mem.wf_write {m : List Cell} {a : Nat} {v : Byte} (hm : Mem.Wf m) (ha : bufferAddr a = true) :
    Mem.Wf (Mem.write m a v) := by
  refine ⟨?_, fun c hc => ?_⟩
  · obtain ⟨hp, -⟩ := hm
    induction m with
    | nil => simp [Mem.write]
    | cons d m ih =>
      obtain ⟨hd, hp'⟩ := List.pairwise_cons.1 hp
      unfold Mem.write
      split
      · rename_i hlt
        refine List.pairwise_cons.2 ⟨fun c hc => ?_, hp⟩
        rcases List.mem_cons.1 hc with rfl | hc
        · exact hlt
        · exact lt_trans hlt (hd c hc)
      · split
        · rename_i heq
          exact List.pairwise_cons.2 ⟨fun c hc => by simpa [heq] using hd c hc, hp'⟩
        · rename_i h1 h2
          refine List.pairwise_cons.2 ⟨fun c hc => ?_, ih hp'⟩
          rcases Mem.mem_write hc with rfl | hc
          · simp; omega
          · exact hd c hc
  · rcases Mem.mem_write hc with rfl | hc
    · exact ha
    · exact hm.2 c hc

theorem Mem.wf_writeBytes {m : List Cell} {a : Nat} {vs : List Byte} (hm : Mem.Wf m)
    (ha : ∀ k < vs.length, bufferAddr (a + k) = true) : Mem.Wf (Mem.writeBytes m a vs) := by
  induction vs generalizing m a with
  | nil => exact hm
  | cons v vs ih =>
    refine ih (Mem.wf_write hm (by simpa using ha 0 (by simp))) fun k hk => ?_
    have := ha (k + 1) (by simpa using hk)
    rwa [Nat.add_assoc, Nat.add_comm 1 k]

theorem Mem.wf_forget {m : List Cell} {lo n : Nat} (hm : Mem.Wf m) : Mem.Wf (Mem.forget m lo n) :=
  ⟨hm.1.filter _, fun c hc => hm.2 c (List.mem_of_mem_filter hc)⟩

theorem Mem.wf_nil : Mem.Wf [] := ⟨List.Pairwise.nil, by simp⟩

theorem Mem.read_eq_none_of_lt {m : List Cell} {a : Nat} (h : ∀ c ∈ m, a < c.1) : Mem.read m a = none := by
  induction m with
  | nil => rfl
  | cons c m ih =>
    have := h c List.mem_cons_self
    rw [Mem.read_cons, if_neg (by omega)]
    exact ih fun d hd => h d (List.mem_cons_of_mem _ hd)

/-- Two memories in the canonical form that read alike are equal. -/
theorem Mem.ext_of_wf {m m' : List Cell} (hm : Mem.Wf m) (hm' : Mem.Wf m')
    (h : ∀ a, Mem.read m a = Mem.read m' a) : m = m' := by
  obtain ⟨hp, -⟩ := hm
  obtain ⟨hp', -⟩ := hm'
  induction m generalizing m' with
  | nil =>
    cases m' with
    | nil => rfl
    | cons d m' => simpa [Mem.read_cons] using h d.1
  | cons c m ih =>
    cases m' with
    | nil => simpa [Mem.read_cons] using h c.1
    | cons d m' =>
      obtain ⟨hc, hpt⟩ := List.pairwise_cons.1 hp
      obtain ⟨hd, hpt'⟩ := List.pairwise_cons.1 hp'
      have hcd : c.1 = d.1 := by
        rcases Nat.lt_trichotomy c.1 d.1 with hlt | heq | hlt
        · have hn : Mem.read (d :: m') c.1 = none :=
            Mem.read_eq_none_of_lt fun x hx => by
              rcases List.mem_cons.1 hx with rfl | hx
              · exact hlt
              · exact lt_trans hlt (hd x hx)
          simpa [Mem.read_cons, hn] using h c.1
        · exact heq
        · have hn : Mem.read (c :: m) d.1 = none :=
            Mem.read_eq_none_of_lt fun x hx => by
              rcases List.mem_cons.1 hx with rfl | hx
              · exact hlt
              · exact lt_trans hlt (hc x hx)
          have := h d.1
          rw [hn, Mem.read_cons, if_pos rfl] at this
          exact absurd this (by simp)
      have hv : c.2 = d.2 := by
        have := h c.1
        simpa [Mem.read_cons, hcd] using this
      have hh : c = d := Prod.ext hcd hv
      subst hh
      refine congrArg _ (ih (m' := m') (fun a => ?_) hpt hpt')
      have ha := h a
      simp only [Mem.read_cons] at ha
      by_cases hca : c.1 = a
      · subst hca
        rw [Mem.read_eq_none_of_lt hc, Mem.read_eq_none_of_lt hd]
      · simpa [hca] using ha

/-! ## Reads of a buffer -/

@[simp] theorem State.bytes_length (s : State) (base n : Nat) : (s.bytes base n).length = n := by
  simp [State.bytes]

theorem State.bytes_getElem? (s : State) (base n k : Nat) :
    (s.bytes base n)[k]? = if k < n then some (s.peek (base + k) k) else none := by
  simp only [State.bytes, List.getElem?_map]
  split
  · rw [List.getElem?_range (by assumption)]; rfl
  · rw [List.getElem?_eq_none (by simp; omega)]; rfl

theorem State.bytes_getD (s : State) (base n k : Nat) (d : Byte) (h : k < n) :
    (s.bytes base n).getD k d = s.peek (base + k) k := by
  rw [List.getD_eq_getElem?_getD, State.bytes_getElem?, if_pos h, Option.getD_some]

/-- A shorter read of a buffer is a prefix of a longer one. -/
theorem State.bytes_take (s : State) (base n k : Nat) : (s.bytes base n).take k = s.bytes base (min k n) := by
  simp [State.bytes, ← List.map_take, List.take_range]

theorem State.peek_of_read {s : State} {a slot : Nat} {v : Byte} (h : Mem.read s.mem a = some v) :
    s.peek a slot = v := by
  simp [State.peek, h]

/-- A buffer read depends on the memory and the free values alone. -/
theorem State.bytes_congr {s t : State} {base n : Nat} (hd : t.draws = s.draws)
    (hm : ∀ k < n, Mem.read t.mem (base + k) = Mem.read s.mem (base + k)) : t.bytes base n = s.bytes base n := by
  unfold State.bytes
  refine List.map_congr_left fun k hk => ?_
  simp [State.peek, hd, hm k (List.mem_range.1 hk)]

end Sys2Proof.Machine
end

