-- ==== Sys2Proof/Laws/Codec.lean ====
section
/-! SUPPORT. Sys2Proof/Laws/Codec.lean: what the checksum, the encoder, the decoder and the builder can answer. -/

namespace Sys2Proof.Machine

/-! ## Sums -/

@[simp] theorem byteSum_nil : byteSum [] = 0 := rfl
@[simp] theorem byteSum_cons (b : Byte) (s : List Byte) : byteSum (b :: s) = b.toNat + byteSum s := rfl

theorem byteSum_append (s t : List Byte) : byteSum (s ++ t) = byteSum s + byteSum t := by
  induction s with
  | nil => simp
  | cons b s ih => simp [ih, Nat.add_assoc]

/-! ## Checksum -/

/-- What a successful checksum says of its input. -/
theorem checksumOf_ok {n : Nat} {s : List Byte} {c : Byte} (h : checksumOf n s = .ok c) :
    3 ≤ n ∧ s.getD 0 0 ≠ 0xFF ∧ (s.getD 1 0).toNat = n - 1 ∧ c = ~~~ (BitVec.ofNat 8 (byteSum s)) := by
  unfold checksumOf at h
  split at h
  · cases h
  · split at h
    · cases h
    · split at h
      · cases h
      · refine ⟨by omega, by assumption, ?_, ?_⟩
        · rename_i h'; simpa using h'
        · simpa using h.symm

theorem checksumOf_eq {n : Nat} {s : List Byte} (h3 : 3 ≤ n) (hid : s.getD 0 0 ≠ 0xFF)
    (hl : (s.getD 1 0).toNat = n - 1) : checksumOf n s = .ok (~~~ (BitVec.ofNat 8 (byteSum s))) := by
  unfold checksumOf
  rw [if_neg (by omega), if_neg hid, if_neg (by simpa using hl)]

/-- The errors of the checksum are its three. -/
theorem checksumOf_error {n : Nat} {s : List Byte} {e : ResultCode} (h : checksumOf n s = .error e) :
    (e = .csShort ∧ n < 3) ∨ (e = .csId ∧ 3 ≤ n ∧ s.getD 0 0 = 0xFF) ∨
      (e = .csLength ∧ 3 ≤ n ∧ s.getD 0 0 ≠ 0xFF ∧ (s.getD 1 0).toNat ≠ n - 1) := by
  unfold checksumOf at h
  split at h
  · cases h; exact .inl ⟨rfl, by assumption⟩
  · split at h
    · cases h; exact .inr (.inl ⟨rfl, by omega, by assumption⟩)
    · split at h
      · cases h; exact .inr (.inr ⟨rfl, by omega, by assumption, by assumption⟩)
      · cases h

/-! ## Ids -/

theorem lt_idMaxInstr_iff (id : Byte) : Config.idMaxInstr < id ↔ id = 0xFF := by
  simp only [Config.idMaxInstr]
  bv_omega

theorem lt_idMaxReply_iff (id : Byte) : Config.idMaxReply < id ↔ id = 0xFE ∨ id = 0xFF := by
  simp only [Config.idMaxReply]
  bv_omega

/-! ## Encoder -/

@[simp] theorem frameLayout_length (id : Byte) (p : List Byte) : (frameLayout id p).length = p.length + 5 := by
  simp [frameLayout]

theorem encodeFrame_eq {id : Byte} {p : List Byte} (hid : id ≠ 0xFF) (h1 : 1 ≤ p.length) (h2 : p.length ≤ 254) :
    encodeFrame id p = .ok (frameLayout id p) := by
  unfold encodeFrame
  rw [if_neg (by rw [lt_idMaxInstr_iff]; exact hid), if_neg (by simp only [Config.payloadMax]; omega)]
  have hl : (BitVec.ofNat 8 (p.length + 1)).toNat = p.length + 1 := by
    rw [BitVec.toNat_ofNat, Nat.mod_eq_of_lt (by omega)]
  have hc : checksum (id :: BitVec.ofNat 8 (p.length + 1) :: p) =
      .ok (~~~ (BitVec.ofNat 8 (id.toNat + (p.length + 1) + byteSum p))) := by
    unfold checksum
    rw [checksumOf_eq (by simp; omega) (by simpa using hid) (by simp; omega)]
    simp [hl, Nat.add_assoc]
  rw [hc]
  simp [frameLayout, Config.headerByte]

theorem encodeFrame_idRange {id : Byte} {p : List Byte} (hid : id = 0xFF) : encodeFrame id p = .error .idRange := by
  unfold encodeFrame
  rw [if_pos ((lt_idMaxInstr_iff id).2 hid)]

theorem encodeFrame_long {id : Byte} {p : List Byte} (hid : id ≠ 0xFF) (h : 254 < p.length) :
    encodeFrame id p = .error .payloadLong := by
  unfold encodeFrame
  rw [if_neg (by rw [lt_idMaxInstr_iff]; exact hid), if_pos (by simpa [Config.payloadMax] using h)]

theorem encodeFrame_nil {id : Byte} (hid : id ≠ 0xFF) : encodeFrame id [] = .error .csShort := by
  unfold encodeFrame
  rw [if_neg (by rw [lt_idMaxInstr_iff]; exact hid), if_neg (by simp [Config.payloadMax])]
  rfl

/-- The encoder answers the frame of rule R91, or an error. -/
theorem encodeFrame_ok {id : Byte} {p f : List Byte} (h : encodeFrame id p = .ok f) :
    f = frameLayout id p ∧ id ≠ 0xFF ∧ 1 ≤ p.length ∧ p.length ≤ 254 := by
  by_cases hid : id = 0xFF
  · rw [encodeFrame_idRange hid] at h; cases h
  by_cases h2 : 254 < p.length
  · rw [encodeFrame_long hid h2] at h; cases h
  by_cases h1 : p = []
  · subst h1; rw [encodeFrame_nil hid] at h; cases h
  · have h1' : 1 ≤ p.length := List.length_pos_iff.2 h1
    rw [encodeFrame_eq hid h1' (by omega)] at h
    cases h
    exact ⟨rfl, hid, h1', by omega⟩

/-- The frame's last byte, and what stands between header and checksum. -/
theorem frameLayout_parts (id : Byte) (p : List Byte) :
    (frameLayout id p).getLastD 0 = ~~~ (BitVec.ofNat 8 (id.toNat + (p.length + 1) + byteSum p)) ∧
    (frameLayout id p).dropLast.drop 2 = id :: BitVec.ofNat 8 (p.length + 1) :: p ∧
    (frameLayout id p).dropLast.drop 4 = p := by
  have h : frameLayout id p = ([0xFF, 0xFF, id, BitVec.ofNat 8 (p.length + 1)] ++ p) ++
      [~~~ (BitVec.ofNat 8 (id.toNat + (p.length + 1) + byteSum p))] := rfl
  rw [h, List.dropLast_concat]
  exact ⟨List.getLastD_concat, rfl, rfl⟩

/-! ## Decoder -/

/-- The decoder reads the count, the positions below 259, and what the checksum covers: the rest follows from rule R142. -/
theorem decodeCounted_cases (n : Nat) (f : List Byte) :
    (n < 6 ∧ decodeCounted n f = .error .frameShort) ∨
    (6 ≤ n ∧ (f.getD 0 0 ≠ 0xFF ∨ f.getD 1 0 ≠ 0xFF) ∧ decodeCounted n f = .error .badHeader) ∨
    (6 ≤ n ∧ f.getD 0 0 = 0xFF ∧ f.getD 1 0 = 0xFF ∧ (f.getD 3 0).toNat ≠ n - 4 ∧
      decodeCounted n f = .error .badLength) ∨
    (6 ≤ n ∧ f.getD 0 0 = 0xFF ∧ f.getD 1 0 = 0xFF ∧ (f.getD 3 0).toNat = n - 4 ∧
      decodeCounted n f =
        match checksum (f.dropLast.drop 2) with
        | .error .csId => .error .badId
        | .error _ => .error .badChecksum
        | .ok c =>
          if c ≠ f.getLastD 0 then .error .badChecksum
          else if Config.idMaxInstr < f.getD 2 0 then .error .badId
          else .ok (f.getD 2 0, f.dropLast.drop 4)) := by
  have hd : decodeCounted n f =
      if n < 6 then .error .frameShort
      else if f.getD 0 0 ≠ 0xFF ∨ f.getD 1 0 ≠ 0xFF then .error .badHeader
      else if (f.getD 3 0).toNat ≠ n - 4 then .error .badLength
      else
        match checksum (f.dropLast.drop 2) with
        | .error .csId => .error .badId
        | .error _ => .error .badChecksum
        | .ok c =>
          if c ≠ f.getLastD 0 then .error .badChecksum
          else if Config.idMaxInstr < f.getD 2 0 then .error .badId
          else .ok (f.getD 2 0, f.dropLast.drop 4) := rfl
  rw [hd]
  by_cases h1 : n < 6
  · left
    exact ⟨h1, by rw [if_pos h1]⟩
  · by_cases h2 : f.getD 0 0 ≠ 0xFF ∨ f.getD 1 0 ≠ 0xFF
    · right; left
      exact ⟨by omega, h2, by rw [if_neg h1, if_pos h2]⟩
    · rw [not_or, not_not, not_not] at h2
      by_cases h3 : (f.getD 3 0).toNat ≠ n - 4
      · right; right; left
        exact ⟨by omega, h2.1, h2.2, h3, by rw [if_neg h1, if_neg (not_or.2 ⟨not_not.2 h2.1, not_not.2 h2.2⟩), if_pos h3]⟩
      · right; right; right
        refine ⟨by omega, h2.1, h2.2, by simpa using h3, ?_⟩
        rw [if_neg h1, if_neg (not_or.2 ⟨not_not.2 h2.1, not_not.2 h2.2⟩), if_neg h3]

/-- The shape of a list of at least six bytes. -/
theorem frame_shape {f : List Byte} (h : 6 ≤ f.length) :
    ∃ a b i l p c, f = a :: b :: i :: l :: (p ++ [c]) ∧ p.length = f.length - 5 ∧ 1 ≤ p.length := by
  match f, h with
  | a :: b :: i :: l :: x :: r, h =>
    have hne : x :: r ≠ [] := List.cons_ne_nil _ _
    refine ⟨a, b, i, l, (x :: r).dropLast, (x :: r).getLast hne, ?_, ?_, ?_⟩
    · rw [List.dropLast_concat_getLast]
    · simp
    · simp at h ⊢; omega

/-- A decode answers the id byte and what stands between length and checksum. -/
theorem decodeCounted_payload {n : Nat} {f : List Byte} {id : Byte} {p : List Byte}
    (h : decodeCounted n f = .ok (id, p)) : p = f.dropLast.drop 4 := by
  rcases decodeCounted_cases n f with h' | h' | h' | h'
  · rw [h'.2] at h; cases h
  · rw [h'.2.2] at h; cases h
  · rw [h'.2.2.2.2] at h; cases h
  · rw [h'.2.2.2.2] at h
    split at h
    · cases h
    · cases h
    · split at h
      · cases h
      · split at h
        · cases h
        · cases h; rfl

/-! ## Builder -/

theorem opcodeByte_mem (p : Params) (op : Opcode) : p.opcodeByte op ∈ p.opcodeBytes := by
  cases op <;> simp [Params.opcodeByte, Params.opcodeBytes]

/-- The opcode of a byte has that byte. -/
theorem opcodeByte_of_opcodeOf {p : Params} {b : Byte} {op : Opcode} (h : p.opcodeOf b = some op) :
    p.opcodeByte op = b := by
  unfold Params.opcodeOf at h
  repeat' split at h
  all_goals first
    | (cases h; done)
    | (cases h; simp only [Params.opcodeByte]; symm; assumption)

/-- With distinct opcode bytes, the byte of an opcode is that opcode's alone. -/
theorem opcodeOf_opcodeByte {p : Params} (hp : p.OpcodesOk) (op : Opcode) : p.opcodeOf (p.opcodeByte op) = some op := by
  obtain ⟨h, -⟩ := hp
  simp only [Params.opcodeBytes, List.nodup_cons, List.mem_cons, not_or, List.not_mem_nil, not_false_eq_true, and_true] at h
  obtain ⟨⟨-, -, a1, a2, a3, a4⟩, ⟨-, b1, b2, b3, b4⟩, ⟨c1, c2, c3, c4⟩, ⟨d1, d2, d3⟩, ⟨e1, e2⟩, f1, -⟩ := h
  cases op <;> simp only [Params.opcodeByte, Params.opcodeOf]
  · rfl
  · rfl
  · rfl
  · rw [if_neg (Ne.symm a1), if_neg (Ne.symm b1), if_neg (Ne.symm c1), if_pos trivial]
  · rw [if_neg (Ne.symm a2), if_neg (Ne.symm b2), if_neg (Ne.symm c2), if_neg (Ne.symm d1), if_pos trivial]
  · rw [if_neg (Ne.symm a3), if_neg (Ne.symm b3), if_neg (Ne.symm c3), if_neg (Ne.symm d2), if_neg (Ne.symm e1),
      if_pos trivial]
  · rw [if_neg (Ne.symm a4), if_neg (Ne.symm b4), if_neg (Ne.symm c4), if_neg (Ne.symm d3), if_neg (Ne.symm e2),
      if_neg (Ne.symm f1), if_pos trivial]

theorem opcodeOf_none {p : Params} {b : Byte} : p.opcodeOf b = none ↔ b ∉ p.opcodeBytes := by
  simp only [Params.opcodeOf, Params.opcodeBytes, List.mem_cons, not_or, List.not_mem_nil, not_false_eq_true, and_true]
  repeat' split
  all_goals simp_all

/-- What a successful build says. -/
theorem build_ok {p : Params} {id opc : Byte} {ps f : List Byte} (h : build p id opc ps = .ok f) :
    ∃ op, p.opcodeOf opc = some op ∧ id ≠ 0xFF ∧ (p.pcount op).1 ≤ ps.length ∧ ps.length ≤ (p.pcount op).2 ∧
      ps.length ≤ 253 ∧ f = frameLayout id (opc :: ps) := by
  unfold build at h
  split at h
  · cases h
  · rename_i op hop
    split at h
    · cases h
    · split at h
      · cases h
      · rename_i h1 h2
        obtain ⟨hf, hid, -, hlen⟩ := encodeFrame_ok h
        simp at hlen
        exact ⟨op, hop, hid, by omega, by omega, by omega, hf⟩

theorem build_eq {p : Params} {id opc : Byte} {ps : List Byte} {op : Opcode} (hop : p.opcodeOf opc = some op)
    (hid : id ≠ 0xFF) (h1 : (p.pcount op).1 ≤ ps.length) (h2 : ps.length ≤ (p.pcount op).2) (h3 : ps.length ≤ 253) :
    build p id opc ps = .ok (frameLayout id (opc :: ps)) := by
  unfold build
  rw [hop]
  dsimp only
  rw [if_neg (by rw [lt_idMaxInstr_iff]; exact hid), if_neg (by omega),
    encodeFrame_eq hid (by simp) (by simp; omega)]

theorem build_badOpcode {p : Params} {id opc : Byte} {ps : List Byte} (h : p.opcodeOf opc = none) :
    build p id opc ps = .error .badOpcode := by
  unfold build; rw [h]

theorem build_idRange {p : Params} {opc : Byte} {ps : List Byte} {op : Opcode} (h : p.opcodeOf opc = some op) :
    build p 0xFF opc ps = .error .idRange := by
  unfold build; rw [h]; dsimp only; rw [if_pos ((lt_idMaxInstr_iff _).2 rfl)]

theorem build_paramCount {p : Params} {id opc : Byte} {ps : List Byte} {op : Opcode} (h : p.opcodeOf opc = some op)
    (hid : id ≠ 0xFF) (hc : ps.length < (p.pcount op).1 ∨ (p.pcount op).2 < ps.length) :
    build p id opc ps = .error .paramCount := by
  unfold build; rw [h]; dsimp only
  rw [if_neg (by rw [lt_idMaxInstr_iff]; exact hid), if_pos hc]

/-- No opcode takes more than 253 parameters where `MAX_PARAMS` is legal (rules R5, R101). -/
theorem pcount_le {p : Params} (h : p.MaxOk) (op : Opcode) : (p.pcount op).2 ≤ 253 := by
  obtain ⟨-, h⟩ := h
  cases op <;> simp [Params.pcount, h]

/-! ## Status parser -/

/-- What the status parse answers, from what the decode answers (rule R158). -/
theorem parseStatus_cases (n : Nat) (f : List Byte) :
    (∃ e, decodeCounted n f = .error e ∧ parseStatus n f = .malformed e) ∨
    (∃ id p, decodeCounted n f = .ok (id, p) ∧ (id = 0xFE ∨ id = 0xFF) ∧ parseStatus n f = .malformed .badReplyId) ∨
    (∃ id p, decodeCounted n f = .ok (id, p) ∧ id ≠ 0xFE ∧ id ≠ 0xFF ∧
      parseStatus n f = .status { id := id, err := p.getD 0 0, params := p.tail }) := by
  unfold parseStatus
  cases h : decodeCounted n f with
  | error e => exact .inl ⟨e, rfl, rfl⟩
  | ok r =>
    obtain ⟨id, p⟩ := r
    by_cases hid : Config.idMaxReply < id
    · exact .inr (.inl ⟨id, p, rfl, (lt_idMaxReply_iff id).1 hid, by dsimp only; rw [if_pos hid]⟩)
    · have := mt (lt_idMaxReply_iff id).2 hid
      rw [not_or] at this
      exact .inr (.inr ⟨id, p, rfl, this.1, this.2, by dsimp only; rw [if_neg hid]⟩)

/-- The decoder's errors are the malformed-packet codes of its steps. -/
theorem decodeCounted_congr {n m : Nat} {f g : List Byte} (h : decodeCounted n f = decodeCounted m g) :
    parseStatus n f = parseStatus m g := by
  unfold parseStatus; rw [h]

end Sys2Proof.Machine
end

