-- ==== Sys2Proof/Laws/Ops.lean ====
section
/-! SUPPORT. Sys2Proof/Laws/Ops.lean: what a step of several cycles does in each of them, what every action of a command leaves as it
is, and the reads of memory after the actions that store. -/

namespace Sys2Proof.Machine

/-! ## Steps of several cycles -/

/-- Before its last cycle a step changes nothing but the count of its cycles. -/
theorem State.afterDelay_wait {s : State} {n : Nat} (act : State → State) (h : s.seq.dly + 1 < n) :
    s.afterDelay n act = s.setSeq { s.seq with dly := s.seq.dly + 1 } := if_pos h

/-- In its last cycle a step acts. -/
theorem State.afterDelay_last {s : State} {n : Nat} (act : State → State) (h : n ≤ s.seq.dly + 1) :
    s.afterDelay n act = act (s.setSeq { s.seq with dly := 0 }) := if_neg (by omega)

/-- All that one cycle of a step of `n` cycles can do. -/
theorem State.afterDelay_cases (s : State) (n : Nat) (act : State → State) :
    (s.seq.dly + 1 < n ∧ s.afterDelay n act = s.setSeq { s.seq with dly := s.seq.dly + 1 }) ∨
    (n ≤ s.seq.dly + 1 ∧ s.afterDelay n act = act (s.setSeq { s.seq with dly := 0 })) := by
  by_cases h : s.seq.dly + 1 < n
  · exact .inl ⟨h, State.afterDelay_wait act h⟩
  · exact .inr ⟨by omega, State.afterDelay_last act (by omega)⟩

/-- All that a cycle of a local command can do. -/
theorem State.localCycle_cases {s t : State} {act : State → State} (h : s.localCycle act = .next t) :
    s.phase = .localCmd ∧ t = s.afterDelay s.params.latLocal act := by
  unfold State.localCycle at h
  split at h
  · exact ⟨by assumption, by cases h; rfl⟩
  · cases h

theorem State.localCycle_eq {s : State} (act : State → State) (h : s.phase = .localCmd) :
    s.localCycle act = .next (s.afterDelay s.params.latLocal act) := by
  unfold State.localCycle; rw [h]

/-- The last cycle of a local command. -/
theorem State.localCycle_last {s : State} (act : State → State) (h : s.atLocalEnd) :
    s.localCycle act = .next (act (s.setSeq { s.seq with dly := 0 })) := by
  rw [State.localCycle_eq act h.1, State.afterDelay_last act h.2]

/-! ## Buffer addresses -/

theorem bufferAddr_iff (a : Nat) : bufferAddr a = true ↔ (0x100 ≤ a ∧ a < 0x503) ∨ (0x600 ≤ a ∧ a < 0x703) := by
  simp only [bufferAddr, Bool.or_eq_true, Bool.and_eq_true, decide_eq_true_eq]
  rfl

theorem bufferAddr_qb {k : Nat} (h : k < 256) : bufferAddr (Config.qbBase + k) = true := by
  rw [bufferAddr_iff, Config.qbBase]; omega

theorem bufferAddr_scan {k : Nat} (h : k < 256) : bufferAddr (Config.scanBase + k) = true := by
  rw [bufferAddr_iff, Config.scanBase]; omega

theorem bufferAddr_txb {k : Nat} (h : k < 259) : bufferAddr (Config.txbBase + k) = true := by
  rw [bufferAddr_iff, Config.txbBase]; omega

theorem bufferAddr_rxb {k : Nat} (h : k < 259) : bufferAddr (Config.rxbBase + k) = true := by
  rw [bufferAddr_iff, Config.rxbBase]; omega

/-! ## What no action of a command touches -/

/-- `t` keeps what no command writes: CTRL, the operand registers, the latched code and mode, OVR, PB, the model's inputs,
parameters and draws, and the canonical form of the buffers. -/
structure Keeps (s t : State) : Prop where
  ctrl   : t.ctrl = s.ctrl
  regs   : t.regs = s.regs
  cmd    : t.seq.cmd = s.seq.cmd
  rxmode : t.seq.rxmode = s.seq.rxmode
  ovr    : t.stat.ovr = s.stat.ovr
  params : t.params = s.params
  draws  : t.draws = s.draws
  script : t.script = s.script
  lateReady : t.lateReady = s.lateReady
  rdata  : t.rdata = s.rdata
  low    : ∀ a < 0x200, Mem.read t.mem a = Mem.read s.mem a
  wf     : Mem.Wf s.mem → Mem.Wf t.mem

theorem Keeps.refl (s : State) : Keeps s s := ⟨rfl, rfl, rfl, rfl, rfl, rfl, rfl, rfl, rfl, rfl, fun _ _ => rfl, id⟩

theorem Keeps.trans {s t u : State} (h : Keeps s t) (k : Keeps t u) : Keeps s u :=
  ⟨k.ctrl.trans h.ctrl, k.regs.trans h.regs, k.cmd.trans h.cmd, k.rxmode.trans h.rxmode, k.ovr.trans h.ovr,
    k.params.trans h.params, k.draws.trans h.draws, k.script.trans h.script, k.lateReady.trans h.lateReady,
    k.rdata.trans h.rdata, fun a ha => (k.low a ha).trans (h.low a ha), fun hm => k.wf (h.wf hm)⟩

theorem Keeps.after {s t u : State} (k : Keeps t u) (h : Keeps s t) : Keeps s u := h.trans k

theorem Keeps.finish (s : State) (c : ResultCode) : Keeps s (s.finish c) :=
  ⟨rfl, rfl, rfl, rfl, rfl, rfl, rfl, rfl, rfl, rfl, fun _ _ => rfl, id⟩

theorem Keeps.enter (s : State) (p : Phase) : Keeps s (s.enter p) :=
  ⟨rfl, rfl, rfl, rfl, rfl, rfl, rfl, rfl, rfl, rfl, fun _ _ => rfl, id⟩

theorem Keeps.setCsu (s : State) (v : Csu) : Keeps s (s.setCsu v) :=
  ⟨rfl, rfl, rfl, rfl, rfl, rfl, rfl, rfl, rfl, rfl, fun _ _ => rfl, id⟩

theorem Keeps.setRes (s : State) (v : ResultRegs) : Keeps s (s.setRes v) :=
  ⟨rfl, rfl, rfl, rfl, rfl, rfl, rfl, rfl, rfl, rfl, fun _ _ => rfl, id⟩

theorem Keeps.setRxn (s : State) (v : Half) : Keeps s (s.setRxn v) :=
  ⟨rfl, rfl, rfl, rfl, rfl, rfl, rfl, rfl, rfl, rfl, fun _ _ => rfl, id⟩

theorem Keeps.setPins (s : State) (v : Pins) : Keeps s (s.setPins v) :=
  ⟨rfl, rfl, rfl, rfl, rfl, rfl, rfl, rfl, rfl, rfl, fun _ _ => rfl, id⟩

theorem Keeps.setPingok (s : State) (b : Bool) : Keeps s (s.setPingok b) :=
  ⟨rfl, rfl, rfl, rfl, rfl, rfl, rfl, rfl, rfl, rfl, fun _ _ => rfl, id⟩

theorem Keeps.uartFlush (s : State) : Keeps s s.uartFlush :=
  ⟨rfl, rfl, rfl, rfl, rfl, rfl, rfl, rfl, rfl, rfl, fun _ _ => rfl, id⟩

theorem Keeps.uartSend (s : State) (b : Byte) : Keeps s (s.uartSend b) :=
  ⟨rfl, rfl, rfl, rfl, rfl, rfl, rfl, rfl, rfl, rfl, fun _ _ => rfl, id⟩

theorem Keeps.uartPop (s : State) : Keeps s s.uartPop :=
  ⟨rfl, rfl, rfl, rfl, rfl, rfl, rfl, rfl, rfl, rfl, fun _ _ => rfl, id⟩

theorem Keeps.setStat {s : State} {v : Stat} (h : v.ovr = s.stat.ovr) : Keeps s (s.setStat v) :=
  ⟨rfl, rfl, rfl, rfl, h, rfl, rfl, rfl, rfl, rfl, fun _ _ => rfl, id⟩

theorem Keeps.setSeq {s : State} {v : Seq} (h1 : v.cmd = s.seq.cmd) (h2 : v.rxmode = s.seq.rxmode) :
    Keeps s (s.setSeq v) :=
  ⟨rfl, rfl, h1, h2, rfl, rfl, rfl, rfl, rfl, rfl, fun _ _ => rfl, id⟩

theorem Keeps.setMem {s : State} {m : List Host.Cell} (h1 : ∀ a < 0x200, Mem.read m a = Mem.read s.mem a)
    (h2 : Mem.Wf s.mem → Mem.Wf m) : Keeps s (s.setMem m) :=
  ⟨rfl, rfl, rfl, rfl, rfl, rfl, rfl, rfl, rfl, rfl, h1, h2⟩

theorem Keeps.loadFrame {s : State} {f : List Byte} (h : f.length ≤ 259) : Keeps s (s.loadFrame f) :=
  ⟨rfl, rfl, rfl, rfl, rfl, rfl, rfl, rfl, rfl, rfl,
    fun a ha => by rw [State.loadFrame_mem, Mem.read_writeBytes, if_neg (by simp only [Config.txbBase]; omega)],
    fun hm => Mem.wf_writeBytes hm fun _ hk => bufferAddr_txb (by omega)⟩

theorem Keeps.putQb {s : State} {p : List Byte} (h : p.length ≤ 256) : Keeps s (s.putQb p) :=
  ⟨rfl, rfl, rfl, rfl, rfl, rfl, rfl, rfl, rfl, rfl,
    fun a ha => by
      rw [State.putQb_mem, Mem.read_writeBytes, if_neg (by simp only [Config.qbBase]; omega), Mem.read_forget,
        if_neg (by simp only [Config.qbBase]; omega)],
    fun hm => Mem.wf_writeBytes (Mem.wf_forget hm) fun _ hk => bufferAddr_qb (by omega)⟩

theorem Keeps.forgetQb (s : State) : Keeps s s.forgetQb :=
  Keeps.setMem (fun a ha => by rw [Mem.read_forget, if_neg (by simp only [Config.qbBase]; omega)]) Mem.wf_forget

theorem Keeps.putStatus {s : State} {st : Status} (h : st.params.length ≤ 256) : Keeps s (s.putStatus st) :=
  (Keeps.setRes s _).trans (Keeps.putQb h)

theorem Keeps.keepByte (s : State) (b : Byte) : Keeps s (s.keepByte b) := by
  unfold State.keepByte
  split
  · rename_i h
    simp only [Config.frameMax] at h
    exact Keeps.setMem (fun a ha => by rw [Mem.read_write, if_neg (by simp only [Config.rxbBase]; omega)])
      fun hm => Mem.wf_write hm (bufferAddr_rxb h)
  · exact Keeps.refl s

theorem Keeps.scanRecord (s : State) : Keeps s s.scanRecord := by
  have hlt := s.seq.scanM.isLt
  exact (Keeps.setMem (fun a ha => by rw [Mem.read_write, if_neg (by simp only [Config.scanBase]; omega)])
    fun hm => Mem.wf_write hm (bufferAddr_scan hlt)).trans (Keeps.setSeq rfl rfl)

theorem Keeps.scanFinish (s : State) : Keeps s s.scanFinish :=
  ⟨rfl, rfl, rfl, rfl, rfl, rfl, rfl, rfl, rfl, rfl,
    fun a ha => by
      change Mem.read s.scanMem a = _
      simp only [State.scanMem, Mem.read_forget, Config.qbBase, Config.txbBase, Config.rxbBase, Config.scanBase]
      rw [if_neg (by omega), if_neg (by omega), if_neg (by omega), if_neg (by omega)],
    fun hm => Mem.wf_forget (Mem.wf_forget (Mem.wf_forget (Mem.wf_forget hm)))⟩

theorem Keeps.afterDelay {s : State} {n : Nat} {act : State → State} (h : ∀ u, Keeps u (act u)) :
    Keeps s (s.afterDelay n act) := by
  rcases State.afterDelay_cases s n act with ⟨-, e⟩ | ⟨-, e⟩ <;> rw [e]
  · exact Keeps.setSeq rfl rfl
  · exact Keeps.trans (t := s.setSeq { s.seq with dly := 0 }) (Keeps.setSeq rfl rfl) (h _)

/-! ## Reads after a store -/

theorem storesAt_loadFrame (s : State) (f : List Byte) : storesAt s (s.loadFrame f) Config.txbBase f := fun a => by
  rw [State.loadFrame_mem, Mem.read_writeBytes]

theorem holdsQb_putQb {s : State} {p : List Byte} (h : p.length ≤ 256) : holdsQb s (s.putQb p) p := fun a => by
  rw [State.putQb_mem, Mem.read_writeBytes, Mem.read_forget, Config.byteBufDepth]
  by_cases h1 : Config.qbBase ≤ a ∧ a < Config.qbBase + p.length
  · rw [if_pos h1, if_pos (by omega)]
  · rw [if_neg h1]
    by_cases h2 : Config.qbBase ≤ a ∧ a < Config.qbBase + 256
    · rw [if_pos h2, if_pos h2, List.getElem?_eq_none (by omega)]
    · rw [if_neg h2, if_neg h2]

theorem holdsQb_forgetQb (s : State) : holdsQb s s.forgetQb [] := fun a => by
  rw [State.forgetQb_mem, Mem.read_forget]
  rfl

theorem storesAt_keepByte (s : State) (b : Byte) :
    storesAt s (s.keepByte b) (Config.rxbBase + s.seq.i.toNat) (if s.seq.i.toNat < 259 then [b] else []) := fun a => by
  unfold State.keepByte
  by_cases h : s.seq.i.toNat < 259
  · rw [if_pos (by exact h), if_pos h, State.setMem_mem, Mem.read_write]
    by_cases ha : a = Config.rxbBase + s.seq.i.toNat
    · rw [if_pos ha, if_pos (by simp [ha]), ha, Nat.sub_self]; rfl
    · rw [if_neg ha, if_neg (by simp; omega)]
  · rw [if_neg (by exact h), if_neg h, if_neg (by simp)]

/-- `keepByte` writes the buffers alone. -/
theorem State.keepByte_eq (s : State) (b : Byte) : s.keepByte b = s.setMem (s.keepByte b).mem := by
  unfold State.keepByte
  split <;> rfl

/-- The input of a command that reads PB whole. -/
theorem State.pbOperand_eq {s : State} (h : s.regs.pn.toNat ≤ 255) : s.pbOperand = s.bytes 0x100 s.regs.pn.toNat := by
  unfold State.pbOperand; rw [Nat.min_eq_left h]; rfl

theorem State.pbOperand_length (s : State) : s.pbOperand.length = min s.regs.pn.toNat 255 := State.bytes_length _ _ _

/-- The first 259 bytes of a received sequence. -/
theorem State.rxFrame_eq (s : State) (n : Nat) : s.rxFrame n = (s.bytes 0x600 n).take 259 := by
  rw [State.bytes_take, Nat.min_comm]; rfl

/-- The parameters of a status that parses fit QB. -/
theorem parse_payload_length {n : Nat} {s : State} {st : Status}
    (h : parseStatus n (s.rxFrame n) = .status st) : st.params.length ≤ 254 := by
  rcases parseStatus_cases n (s.rxFrame n) with ⟨e, -, h'⟩ | ⟨id, p, -, -, h'⟩ | ⟨id, p, hd, -, -, h'⟩
  · rw [h'] at h; cases h
  · rw [h'] at h; cases h
  · rw [h'] at h
    cases h
    have hf : (s.rxFrame n).length ≤ 259 := by
      rw [State.rxFrame_eq, List.length_take]; omega
    have hp := decodeCounted_payload hd
    rw [hp]
    simp
    omega

end Sys2Proof.Machine
end

