-- ==== Sys2Proof/Laws/Channel.lean ====
section
/-! SUPPORT. Sys2Proof/Laws/Channel.lean: what each cycle of a transaction can do, and what none of them touches. -/

namespace Sys2Proof.Machine

/-! ## Frames and replies -/

/-- A built packet is a frame of 6 to 259 bytes (rule R93). -/
theorem build_length {p : Params} {id opc : Byte} {ps f : List Byte} (h : build p id opc ps = .ok f) :
    6 ≤ f.length ∧ f.length ≤ 259 := by
  obtain ⟨-, -, -, -, -, h3, rfl⟩ := build_ok h
  simp
  omega

theorem encodeFrame_length {id : Byte} {p f : List Byte} (h : encodeFrame id p = .ok f) :
    6 ≤ f.length ∧ f.length ≤ 259 := by
  obtain ⟨rfl, -, h1, h2⟩ := encodeFrame_ok h
  simp
  omega

/-- A reply whose parameters fit QB. -/
def Reply.Short (r : Reply) : Prop := ∀ st, r = .status st → st.params.length ≤ 256

theorem Reply.short_noReply : Reply.Short .noReply := fun _ h => by cases h

theorem Reply.short_parse (s : State) (n : Nat) : Reply.Short (parseStatus n (s.rxFrame n)) := fun _ h =>
  (parse_payload_length h).trans (by decide)

/-! ## What no cycle of a transaction touches -/

theorem Keeps.buildAct {frame : Except ResultCode (List Byte)} (h : ∀ f, frame = .ok f → f.length ≤ 259) (s : State) :
    Keeps s (State.buildAct frame s) := by
  cases frame with
  | error e => exact Keeps.finish s e
  | ok f => exact (Keeps.loadFrame (h f rfl)).trans (Keeps.finish _ _)

theorem Keeps.endWithReply {r : Reply} (h : r.Short) (s : State) : Keeps s (State.endWithReply r s) := by
  cases r with
  | noReply => exact Keeps.finish s _
  | malformed c => exact (Keeps.forgetQb s).trans (Keeps.finish _ _)
  | status st => exact (Keeps.putStatus (h st rfl)).trans (Keeps.finish _ _)

theorem Keeps.launch {frame : Except ResultCode (List Byte)} {fail : ResultCode → State → State}
    (h : ∀ f, frame = .ok f → f.length ≤ 259) (hf : ∀ e u, Keeps u (fail e u)) (s : State) :
    Keeps s (State.launch frame fail s) := by
  cases frame with
  | error e => exact hf e s
  | ok f =>
    unfold State.launch
    dsimp only
    split
    · exact (Keeps.loadFrame (h f rfl)).trans (Keeps.enter _ _)
    · exact (Keeps.loadFrame (h f rfl)).trans (hf _ _)

theorem Keeps.flushAct (s : State) : Keeps s s.flushAct :=
  Keeps.after (Keeps.enter _ _) (Keeps.after (Keeps.setSeq rfl rfl) (Keeps.uartFlush s))

theorem Keeps.startReception (s : State) : Keeps s s.startReception := by
  unfold State.startReception
  dsimp only
  split
  · exact Keeps.after (Keeps.enter _ _) (Keeps.setSeq rfl rfl)
  · split
    · exact Keeps.after (Keeps.enter _ _) (Keeps.setSeq rfl rfl)
    · exact Keeps.after (Keeps.enter _ _) (Keeps.setSeq rfl rfl)

theorem Keeps.txCycle (s : State) : Keeps s s.txCycle := by
  unfold State.txCycle
  dsimp only
  split
  · exact Keeps.startReception s
  · split
    · split
      · exact (Keeps.uartSend s _).trans (Keeps.setSeq rfl rfl)
      · exact (Keeps.uartSend s _).trans (Keeps.startReception _)
    · exact Keeps.uartSend s _

theorem Keeps.settleCycle (s : State) : Keeps s s.settleCycle := by
  unfold State.settleCycle
  dsimp only
  split
  · exact Keeps.setSeq rfl rfl
  · exact Keeps.after (Keeps.enter _ _) (Keeps.setSeq rfl rfl)

section Finish

variable {fin : Reply → State → State} (hf : ∀ r u, Reply.Short r → Keeps u (fin r u))

include hf

theorem Keeps.endReception (n : Half) (s : State) : Keeps s (s.endReception n fin) := by
  unfold State.endReception
  split
  · exact (Keeps.setRxn s n).trans (hf _ _ Reply.short_noReply)
  · exact (Keeps.setRxn s n).trans (Keeps.enter _ _)

theorem Keeps.reasmCycle (s : State) : Keeps s (s.reasmCycle fin) := by
  unfold State.reasmCycle
  split
  · exact Keeps.endReception hf _ s
  · split
    · exact Keeps.setSeq rfl rfl
    · rename_i b _ _
      have h : Keeps s ((s.uartPop.keepByte b).setSeq { s.seq with i := satSucc s.seq.i }) := by
        have hk := (Keeps.uartPop s).trans (Keeps.keepByte _ b)
        exact hk.trans (Keeps.setSeq hk.cmd.symm hk.rxmode.symm)
      dsimp only
      split
      · exact h.trans (Keeps.endReception hf _ _)
      · exact h.trans (Keeps.setSeq rfl rfl)

theorem Keeps.parseAct (s : State) : Keeps s (State.parseAct fin s) :=
  (Keeps.setCsu s _).trans (hf _ _ (Reply.short_parse s _))

theorem Keeps.snapCycle {s t : State} (h : s.snapCycle fin = .next t) : Keeps s t := by
  unfold State.snapCycle at h
  split at h
  · split at h
    · cases h; exact Keeps.endReception hf _ s
    · cases h; exact Keeps.setSeq rfl rfl
  · split at h
    · cases h; exact Keeps.setSeq rfl rfl
    · split at h
      · cases h
      · rename_i b _ _
        have hk := (Keeps.uartPop s).trans (Keeps.keepByte _ b)
        have h1 : Keeps s ((s.uartPop.keepByte b).setSeq { s.seq with i := s.seq.i + 1, dly := 0 }) :=
          hk.trans (Keeps.setSeq hk.cmd.symm hk.rxmode.symm)
        dsimp only at h
        split at h
        · cases h; exact h1
        · cases h; exact h1.trans (Keeps.endReception hf _ _)

theorem Keeps.exchangeCycle {s t : State} (h : s.exchangeCycle fin = .next t) : Keeps s t := by
  unfold State.exchangeCycle at h
  split at h
  · cases h; exact Keeps.afterDelay Keeps.flushAct
  · cases h; exact Keeps.txCycle s
  · cases h; exact Keeps.settleCycle s
  · exact Keeps.snapCycle hf h
  · cases h; exact Keeps.reasmCycle hf s
  · cases h; exact Keeps.afterDelay (Keeps.parseAct hf)
  · cases h
  · cases h
  · cases h

theorem Keeps.transactCycle {frame : Except ResultCode (List Byte)} {s t : State}
    (hl : ∀ f, frame = .ok f → f.length ≤ 259) (h : s.transactCycle frame fin = .next t) : Keeps s t := by
  unfold State.transactCycle at h
  split at h
  · cases h; exact Keeps.afterDelay (Keeps.launch hl fun e u => Keeps.finish u e)
  · exact Keeps.exchangeCycle hf h

end Finish

theorem Keeps.endDiscarding (r : Reply) (s : State) : Keeps s (State.endDiscarding r s) := Keeps.finish s _

theorem Keeps.endPing {r : Reply} (h : r.Short) (s : State) : Keeps s (State.endPing r s) :=
  (Keeps.setPingok s _).trans (Keeps.endWithReply h _)

theorem Keeps.scanNext (s : State) : Keeps s s.scanNext := by
  unfold State.scanNext
  split
  · exact Keeps.after (Keeps.enter _ _) (Keeps.setSeq rfl rfl)
  · exact Keeps.scanFinish s

theorem Keeps.scanOutputs {r : Reply} (h : r.Short) (s : State) : Keeps s (State.scanOutputs r s) := by
  cases r with
  | noReply => exact Keeps.refl s
  | malformed c => exact Keeps.forgetQb s
  | status st => exact Keeps.putStatus (h st rfl)

theorem Keeps.scanReply {r : Reply} (h : r.Short) (s : State) : Keeps s (State.scanReply r s) := by
  unfold State.scanReply
  split
  · exact ((Keeps.scanOutputs h s).trans (Keeps.scanRecord _)).trans (Keeps.scanNext _)
  · exact (Keeps.scanOutputs h s).trans (Keeps.scanNext _)

theorem Keeps.scanStart (s : State) : Keeps s s.scanStart := by
  unfold State.scanStart
  split
  · exact Keeps.finish s _
  · split
    · exact Keeps.finish s _
    · dsimp only
      split
      · exact Keeps.after (Keeps.scanFinish _) (Keeps.setSeq rfl rfl)
      · exact Keeps.after (Keeps.enter _ _) (Keeps.setSeq rfl rfl)

theorem Keeps.scanLaunch (s : State) : Keeps s s.scanLaunch :=
  Keeps.launch (fun _ h => (build_length h).2) (fun _ u => Keeps.scanNext u) s

/-! ## The instructions of a channel -/

/-- In a phase of the exchange every channel command runs the exchange's cycle, with its own end. -/
def endOf : Instr → Reply → State → State
  | .wrd => State.endDiscarding
  | .ping => State.endPing
  | .scan => State.scanReply
  | .chk | .enc | .dec | .bld | .pst | .send | .rdd | .openCh | .closeCh => State.endWithReply
  | .insPing | .insRead | .insWrite | .insRegWrite | .insAction | .insReset | .insSyncWrite => State.endWithReply

theorem exec_exchange {i : Instr} {s : State} (hi : i ∈ channelInstrs) (hp : s.phase.exchange = true) :
    exec i s = s.exchangeCycle (endOf i) := by
  simp only [channelInstrs, List.mem_cons, List.not_mem_nil, or_false] at hi
  rcases hi with rfl | rfl | rfl | rfl | rfl <;>
    simp only [exec, execSend, execRdd, execWrd, execPing, execScan, State.transactCycle, endOf] <;>
    cases h : s.phase <;> simp_all [Phase.exchange]

theorem Keeps.endOf {i : Instr} {r : Reply} (h : r.Short) (s : State) : Keeps s (endOf i r s) := by
  cases i <;> first
    | exact Keeps.endWithReply h s
    | exact Keeps.endDiscarding r s
    | exact Keeps.endPing h s
    | exact Keeps.scanReply h s

end Sys2Proof.Machine
end

