-- ==== Sys2Proof/Laws/Bus.lean ====
section
/-! SUPPORT. Sys2Proof/Laws/Bus.lean: what a host access, and the start of a cycle, can do; one step; runs of steps. -/

namespace Sys2Proof.Machine

/-! ## The register map -/

/-- The map above the registers (rule R71). -/
theorem locate_high {a : Nat} (h : 0x100 ≤ a) : locate a =
    if a < 0x200 then .entry .pb
    else if a < 0x300 then .entry .qb
    else if a < 0x400 then .entry .scanlist
    else if a < 0x503 then .entry .txb
    else if a < 0x600 then .reserved
    else if a < 0x703 then .entry .rxb
    else .reserved := by
  unfold locate
  rw [if_neg (by omega)]

/-- A buffer entry stands at a buffer address (rule R71). -/
theorem locate_entry {a : Nat} {b : Buf} (h : locate a = .entry b) : bufferAddr a = true := by
  rw [bufferAddr_iff]
  by_contra hn
  have hreg : ∀ a < 0x100, ∀ b ∈ [Buf.pb, .qb, .scanlist, .txb, .rxb], locate a ≠ .entry b := by decide +kernel
  have h1 : 0x100 ≤ a := by
    by_contra hlt
    exact hreg a (by omega) b (by cases b <;> simp) h
  unfold locate at h
  rw [if_neg (by omega), if_neg (by omega), if_neg (by omega), if_neg (by omega), if_neg (by omega)] at h
  by_cases h2 : a < 0x600
  · rw [if_pos h2] at h; cases h
  · rw [if_neg h2, if_neg (by omega)] at h; cases h

/-- A place that rule R77 does not lock takes a write only if it is CTRL or STAT (rules R71, R76). -/
theorem State.writeLoc_unlocked (s : State) (a : Nat) (d : Byte) {l : Loc} (h : l.locked = false) :
    s.writeLoc a d l = s ∨ s.writeLoc a d l = s.setCtrl { ie := d.getLsbD 0, rxmode := d.getLsbD 1 } ∨
    s.writeLoc a d l =
      s.setStat { s.stat with done := s.stat.done && !d.getLsbD 1, ovr := s.stat.ovr && !d.getLsbD 3 } := by
  cases l with
  | ctrl => exact .inr (.inl rfl)
  | stat => exact .inr (.inr rfl)
  | entry b =>
    cases b with
    | pb => cases h
    | rxb => cases h
    | qb => exact .inl rfl
    | scanlist => exact .inl rfl
    | txb => exact .inl rfl
  | rc => exact .inl rfl
  | csum => exact .inl rfl
  | rid => exact .inl rfl
  | rerr => exact .inl rfl
  | qn => exact .inl rfl
  | scann => exact .inl rfl
  | phase => exact .inl rfl
  | txn k => exact .inl rfl
  | reserved => exact .inl rfl
  | cmd => cases h
  | id => cases h
  | opc => cases h
  | pn k => cases h
  | addr => cases h
  | rlen => cases h
  | scanlo => cases h
  | scanhi => cases h
  | rxn k => cases h
  | settle k => cases h
  | timeout k => cases h
  | baud k => cases h

/-! ## The host's access while a command runs -/

/-- While BUSY = 1 the cycle's start reaches CTRL, DONE (which it can only clear), OVR, the read data and the strobes
(rules R77, R78). -/
theorem State.front_busy {s : State} (hb : s.stat.busy = true) :
    ∃ c d o r, s.front =
      { s with ctrl := c, stat := { s.stat with done := s.stat.done && d, ovr := o }, rdata := r, pins := Pins.quiet } := by
  have hs : ∀ c : Ctrl, ∀ o : Bool, ∀ r, ∀ t : State, t.stat = { s.stat with done := s.stat.done && true, ovr := o } →
      t = { s with ctrl := c, stat := t.stat, rdata := r, pins := Pins.quiet } →
      t = { s with ctrl := c, stat := { s.stat with done := s.stat.done && true, ovr := o }, rdata := r,
                   pins := Pins.quiet } := by
    intro c o r t h1 h2
    rw [← h1]; exact h2
  unfold State.front State.hostAccess
  split
  · exact ⟨s.ctrl, true, s.stat.ovr, none, hs _ _ _ _ (by rw [Bool.and_true]; rfl) rfl⟩
  · exact ⟨s.ctrl, true, s.stat.ovr, _, hs _ _ _ _ (by rw [Bool.and_true]; rfl) rfl⟩
  · rename_i a d _
    unfold State.busWrite
    by_cases hl : (locate a.toNat).locked = true
    · rw [if_pos (by rw [hl, Bool.and_true]; exact hb)]
      exact ⟨s.ctrl, true, true, none, hs _ _ _ _ (by rw [Bool.and_true]; rfl) rfl⟩
    · rw [if_neg (by simp [hl])]
      rcases State.writeLoc_unlocked s.beginCycle a.toNat d (by simpa using hl) with h | h | h <;> rw [h]
      · exact ⟨s.ctrl, true, s.stat.ovr, none, hs _ _ _ _ (by rw [Bool.and_true]; rfl) rfl⟩
      · exact ⟨_, true, s.stat.ovr, none, hs _ _ _ _ (by rw [Bool.and_true]; rfl) rfl⟩
      · exact ⟨s.ctrl, _, _, none, rfl⟩

/-! ## One step -/

theorem step_reset {s : State} (h : s.now.rst = true) : step s = .next s.resetEdge.endCycle := by
  unfold step; rw [if_pos h]

theorem step_idle {s : State} (h : s.now.rst = false) (hb : s.stat.busy = false) : step s = .next s.front.endCycle := by
  unfold step; rw [if_neg (by simp [h]), if_neg (by simp [hb])]

theorem step_busy {s : State} (h : s.now.rst = false) (hb : s.stat.busy = true) :
    step s = onNext State.endCycle (runCommand s.fetch s.front) := by
  unfold step; rw [if_neg (by simp [h]), if_pos hb]

/-- All that a step can do. -/
theorem step_cases {s t : State} (h : step s = .next t) :
    (s.now.rst = true ∧ t = s.resetEdge.endCycle) ∨
    (s.now.rst = false ∧ s.stat.busy = false ∧ t = s.front.endCycle) ∨
    (s.now.rst = false ∧ s.stat.busy = true ∧ ∃ u, runCommand s.fetch s.front = .next u ∧ t = u.endCycle) := by
  cases hr : s.now.rst with
  | true => rw [step_reset hr] at h; cases h; exact .inl ⟨rfl, rfl⟩
  | false =>
    cases hb : s.stat.busy with
    | false => rw [step_idle hr hb] at h; cases h; exact .inr (.inl ⟨rfl, rfl, rfl⟩)
    | true =>
      rw [step_busy hr hb] at h
      cases hc : runCommand s.fetch s.front with
      | next u => rw [hc] at h; cases h; exact .inr (.inr ⟨rfl, rfl, u, rfl, rfl⟩)
      | fault r => rw [hc] at h; cases h
      | refused r => rw [hc] at h; cases h

/-- The running command's cycle is its instruction's, or an illegal command's. -/
theorem runCommand_cases (unit : List Byte) (s : State) :
    (∃ i, decode s.params unit = .ok i ∧ runCommand unit s = exec i s) ∨
    (∃ e, decode s.params unit = .error e ∧ runCommand unit s = s.illegalCycle) := by
  unfold runCommand
  cases decode s.params unit with
  | ok i => exact .inl ⟨i, rfl, rfl⟩
  | error e => exact .inr ⟨e, rfl, rfl⟩

/-! ## Runs -/

@[simp] theorem runN_zero (s : State) : runN 0 s = .next s := rfl

/-- A run of one step more, of any machine. -/
theorem run_succ_eq (M : Host.Core) (n : Nat) (s : M.State) : M.run (n + 1) s =
    match M.step s with
    | .next t => M.run n t
    | .fault r => .fault r
    | .refused r => .refused r := by
  cases h : M.step s <;> simp only [Host.Core.run, h]

/-- A run of one step more. -/
theorem runN_eq (n : Nat) (s : State) : runN (n + 1) s =
    match step s with
    | .next t => runN n t
    | .fault r => .fault r
    | .refused r => .refused r := by
  have h := run_succ_eq Sys2Proof.core n s
  have hs : Sys2Proof.core.step s = step s := rfl
  rw [hs] at h
  have hr : runN (n + 1) s = Sys2Proof.core.run (n + 1) s := rfl
  rw [hr, h]
  cases step s <;> rfl

theorem runN_succ {n : Nat} {s t : State} (h : step s = .next t) : runN (n + 1) s = runN n t := by
  rw [runN_eq, h]

theorem runN_add {m n : Nat} {s t : State} (h : runN m s = .next t) : runN (m + n) s = runN n t := by
  induction m generalizing s with
  | zero => cases h; rw [Nat.zero_add]
  | succ m ih =>
    rw [runN_eq] at h
    rw [Nat.succ_add, runN_eq]
    cases hs : step s with
    | next u => rw [hs] at h; exact ih h
    | fault r => rw [hs] at h; cases h
    | refused r => rw [hs] at h; cases h

/-- The inputs of the cycles to come, `m` cycles later. -/
theorem State.input_drop {s t : State} {m : Nat} (ht : t.script = s.script.drop m) (hl : t.lateReady = s.lateReady) (k : Nat) :
    t.input k = s.input (m + k) := by
  simp [State.input, ht, hl, List.getD_eq_getElem?_getD]

/-- The inputs of the cycles to come, one cycle later. -/
theorem State.input_tail {s t : State} (ht : t.script = s.script.tail) (hl : t.lateReady = s.lateReady) (k : Nat) :
    t.input k = s.input (k + 1) := by
  rw [State.input_drop (m := 1) (by rw [ht, List.drop_one]) hl, Nat.add_comm]

/-- The input of this cycle is the first of those to come. -/
theorem State.input_zero (s : State) : s.input 0 = s.now := by
  unfold State.input State.now
  cases s.script <;> rfl

/-- Whether a reset comes does not depend on what stands past the end of the inputs. -/
theorem State.input_rst (s : State) (k : Nat) : (s.input k).rst = (s.script.getD k Inputs.quiet).rst := by
  unfold State.input
  by_cases h : k < s.script.length
  · simp [List.getD_eq_getElem?_getD, List.getElem?_eq_getElem h]
  · simp [List.getD_eq_getElem?_getD, List.getElem?_eq_none (Nat.le_of_not_lt h), Inputs.late]

theorem State.noReset_drop {s t : State} {m n : Nat} (h : s.noReset (m + n)) (ht : t.script = s.script.drop m) :
    t.noReset n := fun k hk => by
  have := h (m + k) (by omega)
  rw [State.input_rst] at this ⊢
  rw [ht]
  simpa [List.getD_eq_getElem?_getD] using this

theorem State.noReset_tail {s t : State} {n : Nat} (h : s.noReset (n + 1)) (ht : t.script = s.script.tail) :
    t.noReset n :=
  State.noReset_drop (m := 1) (by rwa [Nat.add_comm]) (by rw [ht, List.drop_one])

theorem State.noReset_now {s : State} {n : Nat} (h : s.noReset (n + 1)) : s.now.rst = false :=
  s.input_zero ▸ h 0 (by omega)

theorem State.txReady_tail {s t : State} {n : Nat} (h : s.txReadyFor (n + 1)) (ht : t.script = s.script.tail)
    (hl : t.lateReady = s.lateReady) : t.txReadyFor n := fun k hk => by
  rw [State.input_tail ht hl]; exact h (k + 1) (by omega)

theorem State.txReady_now {s : State} {n : Nat} (h : s.txReadyFor (n + 1)) : s.now.txReady = true :=
  s.input_zero ▸ h 0 (by omega)

theorem State.txStalled_tail {s t : State} {n : Nat} (h : s.txStalledFor (n + 1)) (ht : t.script = s.script.tail)
    (hl : t.lateReady = s.lateReady) : t.txStalledFor n := fun k hk => by
  rw [State.input_tail ht hl]; exact h (k + 1) (by omega)

theorem State.txStalled_now {s : State} {n : Nat} (h : s.txStalledFor (n + 1)) : s.now.txReady = false :=
  s.input_zero ▸ h 0 (by omega)

theorem State.arrivals_succ {s t : State} (n : Nat) (ht : t.script = s.script.tail) :
    s.arrivals (n + 1) = s.now.rx ++ t.arrivals n := by
  unfold State.arrivals State.now
  rw [ht]
  cases s.script with
  | nil => simp [Inputs.late, Inputs.quiet]
  | cons x xs => simp

end Sys2Proof.Machine
end

