-- ==== Sys2Proof/Laws/PerInstr.lean ====
section
/-! SUPPORT. Sys2Proof/Laws/PerInstr.lean: what holds of every instruction as syntax, one lemma for each constructor. -/

namespace Sys2Proof.Laws.UnitShape

/-- The shape of an instruction's unit: a command byte of rule R96, followed by at most one byte, which only a unit of BLD's code
has and which then is the byte of the instruction's opcode (rules R95, R96, R101; log entry 1). -/
def Statement (i : Instr) : Prop :=
  ∀ p : Params, ∃ c rest, encode p i = c :: rest ∧ (commandOf c).isSome = true ∧
    (rest = [] ∨ c = 0x04 ∧ ∃ op, i.opcode? = some op ∧ rest = [p.opcodeByte op])

/-- A unit of one byte. -/
theorem command (i : Instr) (c : Byte) (h : ∀ p, encode p i = [c]) (hc : (commandOf c).isSome = true) : Statement i :=
  fun p => ⟨c, [], h p, hc, .inl rfl⟩

/-- A unit of BLD's code and an opcode's byte. -/
theorem packet (i : Instr) (op : Opcode) (h : ∀ p, encode p i = [0x04, p.opcodeByte op]) (ho : i.opcode? = some op) :
    Statement i :=
  fun p => ⟨0x04, [p.opcodeByte op], h p, by decide, .inr ⟨rfl, op, ho, rfl⟩⟩

theorem chk : Statement .chk := command _ 0x01 (fun _ => rfl) (by decide)
theorem enc : Statement .enc := command _ 0x02 (fun _ => rfl) (by decide)
theorem dec : Statement .dec := command _ 0x03 (fun _ => rfl) (by decide)
theorem bld : Statement .bld := command _ 0x04 (fun _ => rfl) (by decide)
theorem pst : Statement .pst := command _ 0x05 (fun _ => rfl) (by decide)
theorem send : Statement .send := command _ 0x06 (fun _ => rfl) (by decide)
theorem rdd : Statement .rdd := command _ 0x07 (fun _ => rfl) (by decide)
theorem wrd : Statement .wrd := command _ 0x08 (fun _ => rfl) (by decide)
theorem ping : Statement .ping := command _ 0x09 (fun _ => rfl) (by decide)
theorem scan : Statement .scan := command _ 0x0A (fun _ => rfl) (by decide)
theorem openCh : Statement .openCh := command _ 0x0B (fun _ => rfl) (by decide)
theorem closeCh : Statement .closeCh := command _ 0x0C (fun _ => rfl) (by decide)
theorem insPing : Statement .insPing := packet _ .ping (fun _ => rfl) rfl
theorem insRead : Statement .insRead := packet _ .read (fun _ => rfl) rfl
theorem insWrite : Statement .insWrite := packet _ .write (fun _ => rfl) rfl
theorem insRegWrite : Statement .insRegWrite := packet _ .regWrite (fun _ => rfl) rfl
theorem insAction : Statement .insAction := packet _ .action (fun _ => rfl) rfl
theorem insReset : Statement .insReset := packet _ .reset (fun _ => rfl) rfl
theorem insSyncWrite : Statement .insSyncWrite := packet _ .syncWrite (fun _ => rfl) rfl

end Sys2Proof.Laws.UnitShape
end

