-- ==== Sys2Proof/Tests/Slice0.lean ====
section
/-! SUPPORT. Sys2Proof/Tests/Slice0.lean: the model's own tests. Expected results come from the spec: the rule or the vector of
spec/95_test_vectors.md that each comment names. Three groups: well-formedness and decoding, one step of each instruction, and
a witness for the hypotheses of each obligation. -/

open Sys2Proof Sys2Proof.Machine

section

set_option Elab.async false

/-! ## Well-formedness: each check refuses an ill-formed term -/

/-- `MAX_PARAMS` is 4 to 253 (rule R5). -/
theorem test_wf_max_params_range :
    Params.default.MaxOk ∧ ¬ { Params.default with maxParams := 3 }.MaxOk ∧
      ¬ { Params.default with maxParams := 254 }.MaxOk := by decide

/-- Opcode bytes are distinct, and 0x00 is none (rules R100, R33). -/
theorem test_wf_opcodes_distinct :
    Params.default.OpcodesOk ∧ ¬ { Params.default with opcReset := 0x01 }.OpcodesOk ∧
      ¬ { Params.default with opcAction := 0x04 }.OpcodesOk ∧ ¬ { Params.default with opcSyncWrite := 0x00 }.OpcodesOk := by
  decide

/-- Every cycle count is at least 1 (rules R5, R299). -/
theorem test_wf_cycle_counts :
    Params.default.CyclesOk ∧ ¬ { Params.default with latLocal := 0 }.CyclesOk ∧
      ¬ { Params.default with buildCycles := 0 }.CyclesOk ∧ ¬ { Params.default with flushCycles := 0 }.CyclesOk ∧
      ¬ { Params.default with popCycles := 0 }.CyclesOk ∧ ¬ { Params.default with parseCycles := 0 }.CyclesOk ∧
      ¬ { Params.default with scanStepCycles := 0 }.CyclesOk := by decide

/-- The whole check on parameters refuses what one of its parts refuses. -/
theorem test_wf_params : Params.default.Wf ∧ ¬ { Params.default with popCycles := 0 }.Wf := by decide

/-- An instruction row needs distinct opcode bytes; a command does not (rules R95, R100). -/
theorem test_wf_instr :
    Instr.Wf Params.default .insReset ∧ ¬ Instr.Wf { Params.default with opcReset := 0x01 } .insReset ∧
      Instr.Wf { Params.default with opcReset := 0x01 } .chk := by decide

/-- A host-operation word keeps its zero bits (rule R105). -/
theorem test_wf_host_word :
    hostWordWf 0x80040001 ∧ hostWordWf 0x00020000 ∧ ¬ hostWordWf 0x90040001 ∧ ¬ hostWordWf 0x80040101 ∧
      ¬ hostWordWf 0x00020001 := by decide

/-! ## Decoding: words written out from the spec's tables -/

/-- The command codes of rule R96, bit by bit. -/
theorem test_decode_commands :
    decode Params.default [0b00000001] = .ok .chk ∧ decode Params.default [0b00000010] = .ok .enc ∧
      decode Params.default [0b00000011] = .ok .dec ∧ decode Params.default [0b00000100] = .ok .bld ∧
      decode Params.default [0b00000101] = .ok .pst ∧ decode Params.default [0b00000110] = .ok .send ∧
      decode Params.default [0b00000111] = .ok .rdd ∧ decode Params.default [0b00001000] = .ok .wrd ∧
      decode Params.default [0b00001001] = .ok .ping ∧ decode Params.default [0b00001010] = .ok .scan ∧
      decode Params.default [0b00001011] = .ok .openCh ∧ decode Params.default [0b00001100] = .ok .closeCh := by
  repeat' constructor

/-- The opcode bytes of rule R101, bit by bit, behind the code of BLD. -/
theorem test_decode_opcodes :
    decode Params.default [0b00000100, 0b00000001] = .ok .insPing ∧
      decode Params.default [0b00000100, 0b00000010] = .ok .insRead ∧
      decode Params.default [0b00000100, 0b00000011] = .ok .insWrite ∧
      decode Params.default [0b00000100, 0b00000100] = .ok .insRegWrite ∧
      decode Params.default [0b00000100, 0b00000101] = .ok .insAction ∧
      decode Params.default [0b00000100, 0b00000110] = .ok .insReset ∧
      decode Params.default [0b00000100, 0b10000011] = .ok .insSyncWrite ∧
      decode Params.default [0b00000100, 0b00000111] = .ok .bld := by
  repeat' constructor

/-- The codes 0x00, 0x0D and 0xFF are illegal (rule R102; V145 to V147). -/
theorem test_decode_illegal :
    decode Params.default [0x00] = .error (.illegalCommand 0x00) ∧
      decode Params.default [0x0D] = .error (.illegalCommand 0x0D) ∧
      decode Params.default [0xFF] = .error (.illegalCommand 0xFF) ∧ decode Params.default [] = .error .noBytes := by
  repeat' constructor

/-- The table's words: a command code is that command, and 0x83, which is none, is the opcode SYNC_WRITE (log entry 1). -/
theorem test_decode_table_words :
    decodeTableWord 8 0x01 = some .chk ∧ decodeTableWord 8 0x0C = some .closeCh ∧
      decodeTableWord 8 0x83 = some .insSyncWrite ∧ decodeTableWord 16 0x0604 = some .insReset ∧
      decodeTableWord 8 0x0D = none := by decide

/-- The two examples of rule R105, and P2's `WR SETTLE+2, 0x0F`. -/
theorem test_host_words :
    encodeHostOp (.wr 0x004 0x01) = 0x80040001 ∧ encodeHostOp (.rd 0x002) = 0x00020000 ∧
      encodeHostOp (.wr 0x01A 0x0F) = 0x801A000F := by decide

/-- `WR32` stores the low byte first (rule R106; P2's BAUD). -/
theorem test_host_wr32 :
    (hostWr32 0x020 0x000F4240).map encodeHostOp = [0x80200040, 0x80210042, 0x8022000F, 0x80230000] := by decide

/-- 20 ms at 50 MHz are 1,000,000 cycles (rule R271). -/
theorem test_settle_cycles : Params.default.settleCycles 20 = 1000000 := by decide

/-! ## One step of each instruction -/

/-- The buffers with bytes at an address. -/
def testCells (base : Nat) (bs : List Byte) : List Host.Cell := Mem.writeBytes [] base bs

/-- From reset: the channel open, command `c` running in phase `ph`, and the buffers `m`. -/
def testState (c : Byte) (ph : Phase) (m : List Host.Cell) : State :=
  { State.reset with
    stat := { State.reset.stat with busy := true, opened := true }
    phase := ph
    mem := m
    seq := { State.reset.seq with cmd := c } }

/-- The operands ID, OPC and PN. -/
def testOps (id opc : Byte) (pn : Half) : OperandRegs := { State.reset.regs with id := id, opc := opc, pn := pn }

/-- What the next state shows through `f`. -/
def testNext {α : Type} (o : Host.Outcome State Fault Refusal) (f : State → α) : Option α :=
  match o with
  | .next t => some (f t)
  | .fault _ => none
  | .refused _ => none

/-- `n` bytes of the buffers from an address on. -/
def testBytes (t : State) (base n : Nat) : List (Option Byte) := (List.range n).map fun k => Mem.read t.mem (base + k)

/-- V17: CHK of `01 02 00` gives FC. -/
theorem test_chk_v17 :
    testNext (step { testState 0x01 .localCmd (testCells 0x100 [0x01, 0x02, 0x00]) with regs := testOps 0 0 3 })
      (fun t => (t.rc, t.res.csum, t.stat.byte)) = some (.ok, 0xFC, 0x06) := by decide +kernel

/-- V15: of a wrong id and a wrong length the id wins, and CSUM is unchanged. -/
theorem test_chk_v15 :
    testNext (step { testState 0x01 .localCmd (testCells 0x100 [0xFF, 0x05, 0x00]) with regs := testOps 0 0 3 })
      (fun t => (t.rc, t.res.csum)) = some (.csId, 0x00) := by decide +kernel

/-- V32: ENC of `00 20` for id 1. -/
theorem test_enc_v32 :
    testNext (step { testState 0x02 .localCmd (testCells 0x100 [0x00, 0x20]) with regs := testOps 1 0 2 })
      (fun t => (t.rc, t.res.txn, t.res.csum, testBytes t 0x400 7)) =
    some (.ok, 7, 0xDB, [0xFF, 0xFF, 0x01, 0x03, 0x00, 0x20, 0xDB].map some) := by decide +kernel

/-- V38: id 0xFF wins over the length. -/
theorem test_enc_v38 :
    testNext (step { testState 0x02 .localCmd [] with regs := testOps 0xFF 0 300 })
      (fun t => (t.rc, t.res.txn)) = some (.idRange, 0) := by decide +kernel

/-- V56: DEC takes the whole payload. -/
theorem test_dec_v56 :
    testNext (step { testState 0x03 .localCmd (testCells 0x600 [0xFF, 0xFF, 0x05, 0x03, 0xAA, 0xBB, 0x92]) with rxn := 7 })
      (fun t => (t.rc, t.res.rid, t.res.qn, testBytes t 0x200 3)) =
    some (.ok, 0x05, 2, [some 0xAA, some 0xBB, none]) := by decide +kernel

/-- V52: id 0xFF gives BAD_ID although the checksum byte is wrong. -/
theorem test_dec_v52 :
    testNext (step { testState 0x03 .localCmd (testCells 0x600 [0xFF, 0xFF, 0xFF, 0x02, 0x00, 0x00]) with rxn := 6 })
      (fun t => (t.rc, t.res.rid)) = some (.badId, 0x00) := by decide +kernel

/-- V56: PST reports the highest flag and still writes the outputs. -/
theorem test_pst_v56 :
    testNext (step { testState 0x05 .localCmd (testCells 0x600 [0xFF, 0xFF, 0x05, 0x03, 0xAA, 0xBB, 0x92]) with rxn := 7 })
      (fun t => (t.rc, t.res.rid, t.res.rerr, t.res.qn, testBytes t 0x200 2)) =
    some (.fOverload, 0x05, 0xAA, 1, [some 0xBB, none]) := by decide +kernel

/-- V53: PST refuses a status from 0xFE. -/
theorem test_pst_v53 :
    testNext (step { testState 0x05 .localCmd (testCells 0x600 [0xFF, 0xFF, 0xFE, 0x02, 0x00, 0xFF]) with rxn := 6 })
      (fun t => (t.rc, t.res.rid, t.res.qn)) = some (.badReplyId, 0x00, 0) := by decide +kernel

/-- V94: BLD, the opcode wins over the id. -/
theorem test_bld_v94 :
    testNext (step { testState 0x04 .localCmd [] with regs := testOps 0xFF 0x00 0 }) (fun t => (t.rc, t.res.txn)) =
      some (.badOpcode, 0) := by decide +kernel

/-- V79: BLD of a broadcast WRITE (Scenario A). -/
theorem test_bld_v79 :
    testNext (exec .bld { testState 0x04 .localCmd (testCells 0x100 [0x03, 0x01]) with regs := testOps 0xFE 0x03 2 })
      (fun t => (t.rc, t.res.txn, testBytes t 0x400 8)) =
    some (.ok, 8, [0xFF, 0xFF, 0xFE, 0x04, 0x03, 0x03, 0x01, 0xF6].map some) := by decide +kernel

/-- The result and the built packet of BLD's unit with an opcode and parameters, for one id. -/
def testBuild (id opc : Byte) (ps : List Byte) : Option (ResultCode × List (Option Byte)) :=
  testNext (step { testState 0x04 .localCmd (testCells 0x100 ps) with regs := testOps id opc (BitVec.ofNat 16 ps.length) })
    fun t => (t.rc, testBytes t 0x400 t.res.txn.toNat)

/-- V73 and V88: PING takes no parameter. -/
theorem test_insPing_v73_v88 :
    testBuild 0x01 0x01 [] = some (.ok, [0xFF, 0xFF, 0x01, 0x02, 0x01, 0xFB].map some) ∧
      testBuild 0x01 0x01 [0x00] = some (.paramCount, []) := by decide +kernel

/-- V77 and V10: READ takes exactly two. -/
theorem test_insRead_v77_v10 :
    testBuild 0x01 0x02 [0x2B, 0x01] = some (.ok, [0xFF, 0xFF, 0x01, 0x04, 0x02, 0x2B, 0x01, 0xCC].map some) ∧
      testBuild 0x01 0x02 [0x2B] = some (.paramCount, []) ∧
      testBuild 0x01 0x02 [0x2B, 0x01, 0x00] = some (.paramCount, []) := by decide +kernel

/-- V78 and V86: WRITE takes two or more. -/
theorem test_insWrite_v78_v86 :
    testBuild 0x01 0x03 [0x19, 0x01] = some (.ok, [0xFF, 0xFF, 0x01, 0x04, 0x03, 0x19, 0x01, 0xDD].map some) ∧
      testBuild 0x01 0x03 [0x03] = some (.paramCount, []) := by decide +kernel

/-- V80: REG_WRITE. -/
theorem test_insRegWrite_v80 :
    testBuild 0x01 0x04 [0x1E, 0x00, 0x02] =
      some (.ok, [0xFF, 0xFF, 0x01, 0x05, 0x04, 0x1E, 0x00, 0x02, 0xD5].map some) := by decide +kernel

/-- V81 and V89: ACTION takes no parameter. -/
theorem test_insAction_v81_v89 :
    testBuild 0xFE 0x05 [] = some (.ok, [0xFF, 0xFF, 0xFE, 0x02, 0x05, 0xFA].map some) ∧
      testBuild 0x01 0x05 [0x00] = some (.paramCount, []) := by decide +kernel

/-- V82 and V90: RESET builds a packet and does not reset the block (rule R155). -/
theorem test_insReset_v82_v90 :
    testBuild 0x01 0x06 [] = some (.ok, [0xFF, 0xFF, 0x01, 0x02, 0x06, 0xF6].map some) ∧
      testBuild 0x01 0x06 [0x00] = some (.paramCount, []) := by decide +kernel

/-- V83 and V87: SYNC_WRITE takes four or more. -/
theorem test_insSyncWrite_v83_v87 :
    testBuild 0xFE 0x83 [0x1E, 0x02, 0x00, 0x10] =
      some (.ok, [0xFF, 0xFF, 0xFE, 0x06, 0x83, 0x1E, 0x02, 0x00, 0x10, 0x48].map some) ∧
      testBuild 0x01 0x83 [0x01, 0x02, 0x03] = some (.paramCount, []) := by decide +kernel

/-- V115: SEND builds the READ of Scenario B and goes on to the flush. -/
theorem test_send_v115 :
    testNext (step { testState 0x06 .localCmd (testCells 0x100 [0x2B, 0x01]) with regs := testOps 0x01 0x02 2 })
      (fun t => (t.phase, t.stat.busy, testBytes t 0x400 8)) =
    some (.flush, true, [0xFF, 0xFF, 0x01, 0x04, 0x02, 0x2B, 0x01, 0xCC].map some) := by decide +kernel

/-- SEND's parse of the reply of Scenario D (V115, V97). -/
theorem test_send_parse_v115 :
    testNext (step { testState 0x06 .parse (testCells 0x600 [0xFF, 0xFF, 0x01, 0x03, 0x00, 0x20, 0xDB]) with rxn := 7 })
      (fun t => (t.rc, t.phase, t.res.rid, t.res.qn, Mem.read t.mem 0x200)) =
    some (.ok, .idle, 0x01, 1, some 0x20) := by decide +kernel

/-- V108: RDD on a closed channel ends with CLOSED after the frame is written. -/
theorem test_rdd_v108 :
    testNext (step { testState 0x07 .localCmd [] with
        stat := { State.reset.stat with busy := true }
        regs := { testOps 0x01 0 0 with addr := 0x2B, rlen := 0x01 } })
      (fun t => (t.rc, t.res.txn, t.res.csum, testBytes t 0x400 8)) =
    some (.closed, 8, 0xCC, [0xFF, 0xFF, 0x01, 0x04, 0x02, 0x2B, 0x01, 0xCC].map some) := by decide +kernel

/-- V105: RDD takes a status from another id. -/
theorem test_rdd_parse_v105 :
    testNext (step { testState 0x07 .parse (testCells 0x600 [0xFF, 0xFF, 0x02, 0x02, 0x00, 0xFB]) with
        rxn := 6, regs := testOps 0x01 0 0 })
      (fun t => (t.rc, t.res.rid, t.stat.done)) = some (.ok, 0x02, true) := by decide +kernel

/-- V109: WRD sends the address before the data. -/
theorem test_wrd_v109 :
    testNext (step { testState 0x08 .localCmd (testCells 0x100 [0x01]) with regs := { testOps 0x01 0 1 with addr := 0x19 } })
      (fun t => (t.phase, testBytes t 0x400 8)) =
    some (.flush, [0xFF, 0xFF, 0x01, 0x04, 0x03, 0x19, 0x01, 0xDD].map some) := by decide +kernel

/-- V110: WRD reports the fault and writes no output. -/
theorem test_wrd_parse_v110 :
    testNext (step { testState 0x08 .parse (testCells 0x600 [0xFF, 0xFF, 0x01, 0x02, 0x10, 0xEC]) with rxn := 6 })
      (fun t => (t.rc, t.res.rid, t.res.rerr)) = some (.fChecksum, 0x00, 0x00) := by decide +kernel

/-- V126: PING of id 0xFF clears PINGOK. -/
theorem test_ping_v126 :
    testNext (step { testState 0x09 .localCmd [] with
        stat := { State.reset.stat with busy := true, opened := true, pingok := true }, regs := testOps 0xFF 0 0 })
      (fun t => (t.rc, t.stat.byte, t.line.txlog)) = some (.idRange, 0x06, []) := by decide +kernel

/-- V122 and V120: PINGOK asks for the pinged id; error byte 0x80 is no fault. -/
theorem test_ping_parse_v122_v120 :
    testNext (step { testState 0x09 .parse (testCells 0x600 [0xFF, 0xFF, 0x01, 0x02, 0x80, 0x7C]) with
        rxn := 6, regs := testOps 0x01 0 0 })
      (fun t => (t.rc, t.stat.pingok, t.res.rerr)) = some (.ok, true, 0x80) ∧
    testNext (step { testState 0x09 .parse (testCells 0x600 [0xFF, 0xFF, 0x02, 0x02, 0x00, 0xFB]) with
        rxn := 6, regs := testOps 0x01 0 0 })
      (fun t => (t.rc, t.stat.pingok, t.res.rid)) = some (.ok, false, 0x02) := by decide +kernel

/-- V132 and V133: SCAN's checks. -/
theorem test_scan_v132_v133 :
    testNext (step { testState 0x0A .localCmd [] with regs := { State.reset.regs with scanhi := 0xFE } })
      (fun t => (t.rc, t.phase)) = some (.idRange, .idle) ∧
    testNext (step { testState 0x0A .localCmd [] with stat := { State.reset.stat with busy := true } })
      (fun t => (t.rc, t.phase)) = some (.closed, .idle) := by decide +kernel

/-- V128: SCAN notes id 2 and goes on to id 3. -/
theorem test_scan_parse_v128 :
    testNext (step { testState 0x0A .parse (testCells 0x600 [0xFF, 0xFF, 0x02, 0x02, 0x00, 0xFB]) with
        rxn := 6
        regs := { State.reset.regs with scanlo := 0x01, scanhi := 0x03 }
        seq := { State.reset.seq with cmd := 0x0A, scanId := 0x02 } })
      (fun t => (t.phase, t.seq.scanId, t.seq.scanM, Mem.read t.mem 0x300)) =
    some (.scanStep, 0x03, 1, some 0x02) := by decide +kernel

/-- V141 and V142: OPEN pulses `u_open` with BAUD, and only once. -/
theorem test_open_v141_v142 :
    testNext (step { testState 0x0B .localCmd [] with
        stat := { State.reset.stat with busy := true }, regs := { State.reset.regs with baud := 0x000F4240 } })
      (fun t => (t.rc, t.stat.byte, t.pins.opened)) = some (.ok, 0x06, some 0x000F4240) ∧
    testNext (step (testState 0x0B .localCmd [])) (fun t => (t.rc, t.stat.byte, t.pins.opened)) =
      some (.ok, 0x06, none) := by decide +kernel

/-- V143 and V144: CLOSE pulses `u_close`, and only once. -/
theorem test_close_v143_v144 :
    testNext (step (testState 0x0C .localCmd [])) (fun t => (t.rc, t.stat.byte, t.pins.closed)) =
      some (.ok, 0x02, true) ∧
    testNext (step { testState 0x0C .localCmd [] with stat := { State.reset.stat with busy := true } })
      (fun t => (t.rc, t.stat.byte, t.pins.closed)) = some (.ok, 0x02, false) := by decide +kernel

/-! ## Phases, the host and reset -/

/-- A byte handed over: the byte at the index goes out, and the last one starts the settle wait (rules R192, R197). -/
theorem test_tx_last_byte :
    testNext (step { testState 0x06 .tx (testCells 0x400 [0xFF, 0xAB]) with
        res := { State.reset.res with txn := 2 }
        regs := { State.reset.regs with settle := 5 }
        seq := { State.reset.seq with cmd := 0x06, i := 1 } })
      (fun t => (t.line.txlog, t.pins.tx, t.phase)) = some ([0xAB], some 0xAB, .settle) := by decide +kernel

/-- V99: an empty FIFO at the sample ends RDD with NO_REPLY. -/
theorem test_snap_v99 :
    testNext (step (testState 0x07 .snap [])) (fun t => (t.rc, t.rxn, t.stat.done)) = some (.noReply, 0, true) := by
  decide +kernel

/-- V137: REASSEMBLE with TIMEOUT = 0 takes no byte. -/
theorem test_reasm_v137 :
    testNext (step { testState 0x09 .reasm [] with line := { fifo := [0xFF], txlog := [] } })
      (fun t => (t.rc, t.rxn, t.line.fifo)) = some (.noReply, 0, [0xFF]) := by decide +kernel

/-- V145: an illegal command. -/
theorem test_illegal_v145 :
    testNext (step (testState 0x00 .localCmd [])) (fun t => (t.rc, t.stat.byte)) = some (.badCommand, 0x06) := by
  decide +kernel

/-- One idle cycle with a host access, then what the state shows. -/
def testHost (s : State) (o : HostOp) : State := { s with script := [{ Inputs.quiet with host := some o }] }

/-- A write of CMD in IDLE is accepted (rule R23). -/
theorem test_accept :
    testNext (step (testHost State.reset (.wr 0x000 0x0B))) (fun t => (t.stat.byte, t.phase, t.seq.cmd)) =
      some (0x01, .localCmd, 0x0B) := by decide +kernel

/-- V148, V150 and V157: while BUSY = 1 ID is dropped with OVR, CTRL is written, and a reserved address is ignored. -/
theorem test_busy_writes_v148_v150_v157 :
    testNext (step (testHost (testState 0x06 .flush []) (.wr 0x004 0x05))) (fun t => (t.regs.id, t.stat.ovr)) =
      some (0x00, true) ∧
    testNext (step (testHost (testState 0x06 .flush []) (.wr 0x001 0x02))) (fun t => (t.ctrl.byte, t.stat.ovr)) =
      some (0x02, false) ∧
    testNext (step (testHost (testState 0x06 .flush []) (.wr 0x503 0x12))) (fun t => (t.stat.ovr, t.mem)) =
      some (false, []) := by decide +kernel

/-- V152: only DONE and OVR are writable in STAT. -/
theorem test_stat_v152 :
    testNext (step (testHost { State.reset with
        stat := { busy := false, done := true, opened := true, ovr := true, pingok := false } } (.wr 0x002 0xFF)))
      (fun t => t.stat.byte) = some 0x04 := by decide +kernel

/-- V156, and SCANHI after reset (V154). -/
theorem test_reads_v156_v154 :
    testNext (step (testHost State.reset (.rd 0x016))) (fun t => t.rdata) = some (some 0x00) ∧
    testNext (step (testHost State.reset (.rd 0x800))) (fun t => t.rdata) = some (some 0x00) ∧
    testNext (step (testHost State.reset (.rd 0x00F))) (fun t => t.rdata) = some (some 0xFD) := by decide +kernel

/-- V158: RXN is little-endian. -/
theorem test_rxn_v158 :
    ((State.reset.busWrite 0x014 0x34).busWrite 0x015 0x12).rxn = 0x1234 := by decide +kernel

/-- V155: a reset in phase TX keeps `txlog` and leaves no result. -/
theorem test_reset_v155 :
    testNext (step { testState 0x07 .tx [] with
        line := { fifo := [], txlog := [0xFF, 0xFF, 0x01] }, script := [{ Inputs.quiet with rst := true }] })
      (fun t => (t.line.txlog, t.stat.byte, t.rc, t.pins.closed)) = some ([0xFF, 0xFF, 0x01], 0x00, .ok, true) := by
  decide +kernel

/-- A table word placed for the fetch runs as its command (log entry 1). -/
theorem test_withFetchWord :
    testNext (step (State.reset.withFetchWord 8 0x0B)) (fun t => (t.rc, t.stat.byte)) = some (.ok, 0x06) ∧
    testNext (step (State.reset.withFetchWord 8 0x83)) (fun t => (t.rc, t.stat.byte)) = some (.paramCount, 0x02) := by
  decide +kernel

/-! ## Witnesses: states and operands that meet the hypotheses of the obligations -/

theorem test_witness_UnitsDecodeToTheirInstruction :
    Instr.Wf Params.default .chk ∧ Instr.Wf Params.default .insSyncWrite := by decide

theorem test_witness_OpcodesOfTheTable :
    Params.default.OpcodesOk ∧ (0x00 : Byte) ∉ Params.default.opcodeBytes ∧ (0x07 : Byte) ∉ Params.default.opcodeBytes := by
  decide

theorem test_witness_HostWordsRoundTrip :
    decodeHostOp 0x80040001 = .ok (.wr 0x004 0x01) ∧ decodeHostOp 0x00020000 = .ok (.rd 0x002) ∧
      decodeHostOp 0x8FFF00FF = .ok (.wr 0xFFF 0xFF) := ⟨rfl, rfl, rfl⟩

/-- V19 and V24. -/
theorem test_witness_ChecksumComplementsTheSum :
    checksum [0x00, 0x02, 0xFD] = .ok 0x00 ∧ checksum (0x00 :: 0xFF :: List.replicate 254 0xFF) = .ok 0xFE := by
  decide +kernel

/-- V24, V13, V14, V25 and V30. -/
theorem test_witness_StreamedChecksumIsTheFunction :
    checksum (0x00 :: 0xFF :: List.replicate 254 0xFF) = .ok 0xFE ∧ checksum [0xFF, 0x01] = .error .csShort ∧
      checksum [0xFF, 0x02, 0x00] = .error .csId ∧
      checksum (0x01 :: 0xFF :: List.replicate 255 0x00) = .error .csLength ∧
      checksum (0x01 :: 0xFF :: List.replicate 598 0x00) = .error .csLength := by decide +kernel

theorem test_witness_EncodedFramesDecodeToTheirPayload :
    ((0xFE : Byte) ≠ 0xFF ∧ 1 ≤ [(0x00 : Byte)].length ∧ [(0x00 : Byte)].length ≤ 254) ∧
      ((0xFD : Byte) ≠ 0xFF ∧ (0xFD : Byte) ≠ 0xFE ∧ 1 ≤ (List.replicate 254 (0xAB : Byte)).length ∧
        (List.replicate 254 (0xAB : Byte)).length ≤ 254) := by decide +kernel

/-- V43, V53 and V7's longest frame. -/
theorem test_witness_DecodeAcceptsOnlyFrames :
    decodeFrame [0xFF, 0xFF, 0x01, 0x02, 0x00, 0xFC] = .ok (0x01, [0x00]) ∧
      decodeFrame [0xFF, 0xFF, 0xFE, 0x02, 0x00, 0xFF] = .ok (0xFE, [0x00]) ∧
      decodeFrame ([0xFF, 0xFF, 0x01, 0xFF] ++ List.replicate 254 0xAB ++ [0x55]) =
        .ok (0x01, List.replicate 254 0xAB) := by decide +kernel

/-- V92 to V95, and both ends of WRITE's range. -/
theorem test_witness_BuiltPacketsDecodeToOpcodeAndParameters :
    Params.default.MaxOk ∧ Params.default.OpcodesOk ∧ (0x07 : Byte) ∉ Params.default.opcodeBytes ∧
      Params.default.opcodeByte .write = 0x03 ∧
      [(0x03 : Byte)].length < (Params.default.pcount .write).1 ∧
      (Params.default.pcount .write).2 < (List.replicate 254 (0x00 : Byte)).length ∧
      (Params.default.pcount .write).1 ≤ [(0x19 : Byte), 0x01].length ∧
      (List.replicate 253 (0x00 : Byte)).length ≤ (Params.default.pcount .write).2 := by decide +kernel

/-- A sequence one byte longer than the longest frame. -/
theorem test_witness_TruncationLosesNothing : 259 < (List.replicate 260 (0xFF : Byte)).length := by decide +kernel

/-- Five bytes; V46 and V45; V47 and V48; then V52, V50 and V43. -/
theorem test_witness_ChecksumStepRefusesIdFfFirst :
    [(0xFF : Byte), 0xFF, 0x01, 0x01, 0xFD].length < 6 ∧
    (∀ f ∈ ([[0x00, 0xFF, 0xFF, 0x01, 0x02, 0x00, 0xFC], [0xFF, 0xFE, 0x01, 0x02, 0x00, 0xFC]] : List (List Byte)),
      6 ≤ f.length ∧ (f.getD 0 0 ≠ 0xFF ∨ f.getD 1 0 ≠ 0xFF)) ∧
    (∀ f ∈ ([[0xFF, 0xFF, 0x01, 0x03, 0x00, 0xFC], [0xFF, 0xFF, 0x01, 0x02, 0x00, 0xFC, 0x00]] : List (List Byte)),
      6 ≤ f.length ∧ f.getD 0 0 = 0xFF ∧ f.getD 1 0 = 0xFF ∧ (f.getD 3 0).toNat ≠ f.length - 4) ∧
    ∀ f ∈ ([[0xFF, 0xFF, 0xFF, 0x02, 0x00, 0x00], [0xFF, 0xFF, 0x01, 0x02, 0x00, 0xFD],
        [0xFF, 0xFF, 0x01, 0x02, 0x00, 0xFC]] : List (List Byte)),
      6 ≤ f.length ∧ f.getD 0 0 = 0xFF ∧ f.getD 1 0 = 0xFF ∧ (f.getD 3 0).toNat = f.length - 4 := by decide +kernel


/-- From reset: the channel open, command `c` running in phase `ph`, operands, RXN, and one buffer. -/
def testRun (c : Byte) (ph : Phase) (r : OperandRegs) (n : Half) (m : List Host.Cell) : State :=
  { testState c ph m with regs := r, rxn := n }

theorem test_run_atLocalEnd (c : Byte) (r : OperandRegs) (n : Half) (m : List Host.Cell) :
    (testRun c .localCmd r n m).atLocalEnd := ⟨rfl, Nat.le_refl 1⟩

theorem test_run_atBuildEnd (c : Byte) (r : OperandRegs) (n : Half) (m : List Host.Cell) :
    (testRun c .localCmd r n m).atBuildEnd := ⟨rfl, Nat.le_refl 1⟩

theorem test_run_atParseEnd (c : Byte) (r : OperandRegs) (n : Half) (m : List Host.Cell) :
    (testRun c .parse r n m).atParseEnd := ⟨rfl, Nat.le_refl 1⟩

/-- V13, V14, V16 and V24's first two bytes, at PN = 2, 3 and 256. -/
theorem test_witness_ChkEndsWithTheChecksum :
    let s (n : Half) (bs : List Byte) := testRun 0x01 .localCmd (testOps 0 0 n) 0 (testCells 0x100 bs)
    (∀ n bs, (s n bs).atLocalEnd) ∧ (s 2 []).regs.pn.toNat < 3 ∧
      (3 ≤ (s 3 [0xFF, 0x02, 0x00]).regs.pn.toNat ∧ (s 3 [0xFF, 0x02, 0x00]).peek 0x100 0 = 0xFF) ∧
      ((s 3 [0x01, 0x03, 0x00]).peek 0x100 0 ≠ 0xFF ∧ ((s 3 [0x01, 0x03, 0x00]).peek 0x101 1).toNat ≠ 3 - 1) ∧
      ((s 256 [0x00, 0xFF]).regs.pn.toNat = 256 ∧ (s 256 [0x00, 0xFF]).peek 0x100 0 ≠ 0xFF ∧
        ((s 256 [0x00, 0xFF]).peek 0x101 1).toNat = 256 - 1) :=
  ⟨fun _ _ => test_run_atLocalEnd _ _ _ _, by decide +kernel⟩

/-- V37, V39, V40, V33 and V36. -/
theorem test_witness_EncEndsWithTheFrame :
    let s (id : Byte) (n : Half) := testRun 0x02 .localCmd (testOps id 0 n) 0 []
    (∀ id n, (s id n).atLocalEnd) ∧ (s 0xFF 1).regs.id = 0xFF ∧
      ((s 0x01 255).regs.id ≠ 0xFF ∧ 254 < (s 0x01 255).regs.pn.toNat) ∧ (s 0x01 0).regs.pn.toNat = 0 ∧
      ((s 0x00 1).regs.id ≠ 0xFF ∧ (s 0x00 1).regs.pn.toNat = 1) ∧
      ((s 0xFE 254).regs.id ≠ 0xFF ∧ (s 0xFE 254).regs.pn.toNat = 254) :=
  ⟨fun _ _ => test_run_atLocalEnd _ _ _ _, by decide +kernel⟩

/-- The frame that a receiving state holds: V50 (a bad checksum), V53 (id 0xFE), V43 and V56. -/
theorem test_witness_DecEndsWithThePayload :
    let s (n : Half) (bs : List Byte) := testRun 0x03 .localCmd State.reset.regs n (testCells 0x600 bs)
    let f (t : State) := t.bytes 0x600 t.rxn.toNat
    (∀ n bs, (s n bs).atLocalEnd) ∧ decodeFrame (f (s 0 [])) = .error .frameShort ∧
      decodeFrame (f (s 6 [0xFF, 0xFF, 0x01, 0x02, 0x00, 0xFD])) = .error .badChecksum ∧
      decodeFrame (f (s 6 [0xFF, 0xFF, 0xFE, 0x02, 0x00, 0xFF])) = .ok (0xFE, [0x00]) ∧
      decodeFrame (f (s 7 [0xFF, 0xFF, 0x05, 0x03, 0xAA, 0xBB, 0x92])) = .ok (0x05, [0xAA, 0xBB]) :=
  ⟨fun _ _ => test_run_atLocalEnd _ _ _ _, by decide +kernel⟩

/-- As for DEC: one state for each of PST's three clauses. -/
theorem test_witness_PstEndsWithTheStatus :
    let s (n : Half) (bs : List Byte) := testRun 0x05 .localCmd State.reset.regs n (testCells 0x600 bs)
    let f (t : State) := t.bytes 0x600 t.rxn.toNat
    (∀ n bs, (s n bs).atLocalEnd) ∧ decodeFrame (f (s 5 [0xFF, 0xFF, 0x01, 0x02, 0x00])) = .error .frameShort ∧
      decodeFrame (f (s 6 [0xFF, 0xFF, 0xFE, 0x02, 0x00, 0xFF])) = .ok (0xFE, [0x00]) ∧
      (decodeFrame (f (s 6 [0xFF, 0xFF, 0xFD, 0x02, 0x00, 0x00])) = .ok (0xFD, [0x00]) ∧ (0xFD : Byte) ≠ 0xFE) ∧
      decodeFrame (f (s 7 [0xFF, 0xFF, 0x05, 0x03, 0xAA, 0xBB, 0x92])) = .ok (0x05, [0xAA, 0xBB]) :=
  ⟨fun _ _ => test_run_atLocalEnd _ _ _ _, by decide +kernel⟩

/-- V92, V93, V86, V85, V74, and the two ends of WRITE's range. -/
theorem test_witness_BldEndsWithThePacket :
    let s (id opc : Byte) (n : Half) := testRun 0x04 .localCmd (testOps id opc n) 0 []
    let lo := (Params.default.pcount .write).1
    let hi := (Params.default.pcount .write).2
    (∀ id opc n, (s id opc n).atLocalEnd ∧ (s id opc n).params = Params.default) ∧
      (Params.default.MaxOk ∧ Params.default.OpcodesOk) ∧ (s 0x01 0x07 0).regs.opc ∉ Params.default.opcodeBytes ∧
      Params.default.opcodeByte .ping = (s 0xFF 0x01 0).regs.opc ∧ (s 0xFF 0x01 0).regs.id = 0xFF ∧
      (Params.default.opcodeByte .write = (s 0x01 0x03 1).regs.opc ∧ (s 0x01 0x03 1).regs.id ≠ 0xFF ∧
        (s 0x01 0x03 1).regs.pn.toNat < lo ∧ hi < (s 0x01 0x03 254).regs.pn.toNat) ∧
      (lo ≤ (s 0x01 0x03 2).regs.pn.toNat ∧ (s 0x01 0x03 253).regs.pn.toNat ≤ hi) :=
  ⟨fun _ _ _ => ⟨test_run_atLocalEnd _ _ _ _, rfl⟩, by decide +kernel⟩

/-- The same states for the instruction rows, and an OPC that holds the row's opcode. -/
theorem test_witness_OpcodeRowsBuildTheirPacket :
    let s (id opc : Byte) (n : Half) := testRun 0x04 .localCmd (testOps id opc n) 0 []
    let lo := (Params.default.pcount .syncWrite).1
    let hi := (Params.default.pcount .syncWrite).2
    (∀ id opc n, (s id opc n).atLocalEnd ∧ (s id opc n).params = Params.default) ∧
      (Params.default.MaxOk ∧ Params.default.OpcodesOk) ∧
      (s 0x01 0x83 3).regs.opc = Params.default.opcodeByte .syncWrite ∧ (s 0xFF 0x00 0).regs.id = 0xFF ∧
      ((s 0x01 0x83 3).regs.id ≠ 0xFF ∧ (s 0x01 0x83 3).regs.pn.toNat < lo ∧
        hi < (s 0x01 0x83 254).regs.pn.toNat) ∧
      (lo ≤ (s 0x01 0x83 4).regs.pn.toNat ∧ (s 0x01 0x83 253).regs.pn.toNat ≤ hi) :=
  ⟨fun _ _ _ => ⟨test_run_atLocalEnd _ _ _ _, rfl⟩, by decide +kernel⟩

theorem test_witness_OpenAndCloseSwitchTheChannel :
    (testState 0x0B .localCmd []).atLocalEnd ∧ (testState 0x0B .localCmd []).stat.opened = true ∧
      { testState 0x0B .localCmd [] with stat := { State.reset.stat with busy := true } }.atLocalEnd ∧
      { testState 0x0B .localCmd [] with stat := { State.reset.stat with busy := true } }.stat.opened = false :=
  ⟨⟨rfl, Nat.le_refl 1⟩, rfl, ⟨rfl, Nat.le_refl 1⟩, rfl⟩

/-- No input is scripted, so no reset comes. -/
theorem test_quiet_run (s : State) (h : s.script = []) (n : Nat) : s.noReset n := fun k _ => by
  unfold State.input; rw [h]; rfl

/-- No input is scripted, so the UART takes a byte in every cycle, or in none. -/
theorem test_late_run (s : State) (h : s.script = []) (n : Nat) :
    (s.lateReady = true → s.txReadyFor n) ∧ (s.lateReady = false → s.txStalledFor n) := by
  constructor <;> intro hl k _ <;> unfold State.input <;> rw [h, hl] <;> rfl

/-- A local command, and an illegal one. -/
theorem test_witness_LocalCommandsEndAfterLatLocalCycles :
    ∀ s ∈ [testState 0x02 .localCmd [], testState 0x0D .localCmd []],
      s.stat.busy = true ∧ s.phase = .localCmd ∧ s.seq.dly = 0 ∧ 1 ≤ s.params.latLocal ∧
        s.noReset s.params.latLocal ∧
        ((∃ i, decode s.params s.fetch = .ok i ∧ i.isLocal = true) ∨ (∃ e, decode s.params s.fetch = .error e)) := by
  intro s hs
  rcases List.mem_pair.mp hs with rfl | rfl
  · exact ⟨rfl, rfl, rfl, Nat.le_refl 1, (test_quiet_run _ rfl _), .inl ⟨.enc, rfl, rfl⟩⟩
  · exact ⟨rfl, rfl, rfl, Nat.le_refl 1, (test_quiet_run _ rfl _), .inr ⟨_, rfl⟩⟩

/-- The clauses of SEND's build: V116, an id of 0xFF, and the ends of WRITE's range. -/
theorem test_witness_SendBuildsThenChecksTheChannel :
    let s (id opc : Byte) (n : Half) := testRun 0x06 .localCmd (testOps id opc n) 0 []
    let lo := (Params.default.pcount .write).1
    let hi := (Params.default.pcount .write).2
    (∀ id opc n, (s id opc n).atBuildEnd ∧ (s id opc n).params = Params.default) ∧
      (Params.default.MaxOk ∧ Params.default.OpcodesOk) ∧ (s 0x01 0x00 0).regs.opc ∉ Params.default.opcodeBytes ∧
      Params.default.opcodeByte .ping = (s 0xFF 0x01 0).regs.opc ∧ (s 0xFF 0x01 0).regs.id = 0xFF ∧
      (Params.default.opcodeByte .write = (s 0x01 0x03 1).regs.opc ∧ (s 0x01 0x03 1).regs.id ≠ 0xFF ∧
        (s 0x01 0x03 1).regs.pn.toNat < lo ∧ hi < (s 0x01 0x03 254).regs.pn.toNat) ∧
      (lo ≤ (s 0x01 0x03 2).regs.pn.toNat ∧ (s 0x01 0x03 253).regs.pn.toNat ≤ hi) :=
  ⟨fun _ _ _ => ⟨test_run_atBuildEnd _ _ _ _, rfl⟩, by decide +kernel⟩

theorem test_witness_RddSendsReadOfAddressAndLength :
    let s (id : Byte) := testRun 0x07 .localCmd (testOps id 0 0) 0 []
    (∀ id, (s id).atBuildEnd) ∧ (s 0xFF).regs.id = 0xFF ∧ (s 0xFE).regs.id ≠ 0xFF :=
  ⟨fun _ => test_run_atBuildEnd _ _ _ _, by decide +kernel⟩

/-- V112, V113, and data of 1 and of 252 bytes. -/
theorem test_witness_WrdSendsWriteOfAddressAndData :
    let s (id : Byte) (n : Half) := testRun 0x08 .localCmd (testOps id 0 n) 0 []
    (∀ id n, (s id n).atBuildEnd ∧ (s id n).params = Params.default) ∧ Params.default.MaxOk ∧
      (s 0xFF 1).regs.id = 0xFF ∧ (s 0x01 0).regs.id ≠ 0xFF ∧ (s 0x01 0).regs.pn.toNat = 0 ∧
      Params.default.maxParams < (s 0x01 253).regs.pn.toNat + 1 ∧ 1 ≤ (s 0x01 1).regs.pn.toNat ∧
      (s 0x01 252).regs.pn.toNat + 1 ≤ Params.default.maxParams :=
  ⟨fun _ _ => ⟨test_run_atBuildEnd _ _ _ _, rfl⟩, by decide +kernel⟩

theorem test_witness_PingClearsPingokAndSendsPing :
    let s (id : Byte) := testRun 0x09 .localCmd (testOps id 0 0) 0 []
    (∀ id, (s id).atBuildEnd) ∧ (s 0xFF).regs.id = 0xFF ∧ (s 0xFE).regs.id ≠ 0xFF :=
  ⟨fun _ => test_run_atBuildEnd _ _ _ _, by decide +kernel⟩

/-- SCANHI = 0xFE; SCANHI = 0xFD on a closed channel; one id; an empty range. -/
theorem test_witness_ScanChecksItsRangeThenTheChannel :
    let s (lo hi : Byte) := testRun 0x0A .localCmd { State.reset.regs with scanlo := lo, scanhi := hi } 0 []
    let closed := { s 0x00 0xFD with stat := { State.reset.stat with busy := true } }
    (∀ lo hi, (s lo hi).atBuildEnd ∧ (s lo hi).stat.opened = true) ∧ 0xFD < (s 0x00 0xFE).regs.scanhi.toNat ∧
      (closed.atBuildEnd ∧ closed.regs.scanhi.toNat ≤ 0xFD ∧ closed.stat.opened = false) ∧
      ((s 0xFD 0xFD).regs.scanhi.toNat ≤ 0xFD ∧
        (s 0xFD 0xFD).regs.scanlo.toNat ≤ (s 0xFD 0xFD).regs.scanhi.toNat) ∧
      ((s 0xFD 0xFC).regs.scanhi.toNat ≤ 0xFD ∧
        (s 0xFD 0xFC).regs.scanhi.toNat < (s 0xFD 0xFC).regs.scanlo.toNat) :=
  ⟨fun _ _ => ⟨test_run_atBuildEnd _ _ _ _, rfl⟩, by decide +kernel,
    ⟨⟨rfl, Nat.le_refl 1⟩, by decide +kernel, rfl⟩, by decide +kernel, by decide +kernel⟩

theorem test_witness_ScanPingsTheCurrentId :
    let s := testState 0x0A .scanStep []
    s.phase = .scanStep ∧ s.params.scanStepCycles ≤ s.seq.dly + 1 ∧ s.stat.opened = true ∧ s.seq.scanId ≠ 0xFF := by
  decide +kernel

theorem test_witness_FlushEmptiesTheReceiveFifo :
    let s := testState 0x06 .flush []
    Instr.send ∈ channelInstrs ∧ s.phase = .flush ∧ s.params.flushCycles ≤ s.seq.dly + 1 := by decide +kernel

/-- A state in phase TX with a frame of `n` bytes, at index `i`, with `u_tx_ready` as given. -/
def testTx (n i : Half) (ready : Bool) : State :=
  { testState 0x06 .tx (testCells 0x400 [0xFF, 0xFF, 0x01, 0x02, 0x01, 0xFB]) with
    res := { State.reset.res with txn := n }
    seq := { State.reset.seq with cmd := 0x06, i := i }
    script := [{ Inputs.quiet with txReady := ready }] }

/-- The first byte of a frame, and a UART that never takes it. -/
theorem test_witness_TxStallLasts :
    let s := { testTx 6 0 false with script := [], lateReady := false }
    s.stat.busy = true ∧ s.phase = .tx ∧ s.seq.i.toNat < s.res.txn.toNat ∧ decode s.params s.fetch = .ok .send ∧
      Instr.send ∈ channelInstrs ∧ (∀ n, s.noReset n ∧ s.txStalledFor n) ∧
      (∀ x ∈ s.script, x.rst = false ∧ x.txReady = false) ∧ s.lateReady = false :=
  ⟨rfl, rfl, by decide +kernel, rfl, by decide, fun _ => ⟨test_quiet_run _ rfl _, (test_late_run _ rfl _).2 rfl⟩, by simp, rfl⟩

theorem test_witness_TxOffersBytesInOrder :
    Instr.send ∈ channelInstrs ∧
      ((testTx 6 5 false).phase = .tx ∧ (testTx 6 5 false).seq.i.toNat < (testTx 6 5 false).res.txn.toNat ∧
        (testTx 6 5 false).now.txReady = false) ∧
      ((testTx 6 4 true).phase = .tx ∧ (testTx 6 4 true).seq.i.toNat + 1 < (testTx 6 4 true).res.txn.toNat ∧
        (testTx 6 4 true).now.txReady = true) := by decide +kernel

theorem test_witness_LastByteStartsReception :
    Instr.ping ∈ channelInstrs ∧ (testTx 6 5 true).phase = .tx ∧
      (testTx 6 5 true).seq.i.toNat + 1 = (testTx 6 5 true).res.txn.toNat ∧ (testTx 6 5 true).now.txReady = true := by
  decide +kernel

theorem test_witness_WriteHandsOverTheWholeFrame :
    let s := { testTx 6 0 true with script := [] }
    s.stat.busy = true ∧ s.phase = .tx ∧ s.seq.i = 0 ∧ 1 ≤ s.res.txn.toNat ∧ decode s.params s.fetch = .ok .send ∧
      Instr.send ∈ channelInstrs ∧ s.noReset s.res.txn.toNat ∧ s.txReadyFor s.res.txn.toNat ∧
      ∀ k < s.res.txn.toNat, (Mem.read s.mem (0x400 + k)).isSome = true := by
  refine ⟨rfl, rfl, rfl, by decide +kernel, rfl, by decide, (test_quiet_run _ rfl _), (test_late_run _ rfl _).1 rfl, ?_⟩
  decide +kernel

/-- One cycle of settle wait, and the longest. -/
theorem test_witness_SettleWaitLastsExactlySettleCycles :
    ∀ n ∈ [(1 : Word), 0xFFFFFFFF],
      let s := testRun 0x09 .settle { State.reset.regs with settle := n } 0 []
      s.stat.busy = true ∧ s.phase = .settle ∧ s.seq.t = 0 ∧ 1 ≤ s.regs.settle.toNat ∧
        decode s.params s.fetch = .ok .ping ∧ Instr.ping ∈ channelInstrs ∧ s.noReset s.regs.settle.toNat := by
  intro n hn
  exact ⟨rfl, rfl, rfl, by rcases List.mem_pair.mp hn with rfl | rfl <;> decide +kernel, rfl, by decide,
    (test_quiet_run _ rfl _)⟩

/-- A state in phase SNAP with a FIFO, a sampled count and an index. -/
def testSnap (fifo : List Byte) (n : Option Half) (i : Half) : State :=
  { testState 0x09 .snap [] with
    line := { fifo := fifo, txlog := [] }, seq := { State.reset.seq with cmd := 0x09, snap := n, i := i } }

theorem test_witness_SnapshotSamplesTheCountOnce :
    ((testSnap [0xFF] none 0).phase = .snap ∧ (testSnap [0xFF] none 0).seq.snap = none ∧
      Instr.scan ∈ channelInstrs ∧ (testSnap [0xFF] none 0).line.fifo ≠ []) ∧
    ((testSnap [] none 0).phase = .snap ∧ (testSnap [] none 0).seq.snap = none ∧
      Instr.wrd ∈ replyInstrs ∧ (testSnap [] none 0).line.fifo = []) := by decide +kernel

/-- The first of two pops, and the 260th of 260. -/
theorem test_witness_SnapshotPopsTheOldestByte :
    Instr.rdd ∈ channelInstrs ∧
      (let s := testSnap [0xFF, 0xFE] (some 2) 0
       s.phase = .snap ∧ s.seq.snap = some 2 ∧ s.params.popCycles ≤ s.seq.dly + 1 ∧ s.line.fifo = 0xFF :: [0xFE] ∧
         s.seq.i.toNat < (2 : Half).toNat) ∧
      (let s := testSnap [0x00] (some 260) 259
       s.phase = .snap ∧ s.seq.snap = some 260 ∧ s.params.popCycles ≤ s.seq.dly + 1 ∧ s.line.fifo = 0x00 :: [] ∧
         s.seq.i.toNat < (260 : Half).toNat) := by decide +kernel

/-- One byte, and more bytes than a count holds. -/
theorem test_witness_SnapshotReadsExactlyTheSampledBytes :
    ∀ n ∈ [1, 0x10001],
      let s := testSnap (List.replicate n 0xFF) none 0
      s.stat.busy = true ∧ s.phase = .snap ∧ s.seq.snap = none ∧ decode s.params s.fetch = .ok .ping ∧
        Instr.ping ∈ channelInstrs ∧ 1 ≤ s.params.popCycles ∧ s.line.fifo ≠ [] ∧
        s.noReset (1 + (s.line.fifo.take 0xFFFF).length * s.params.popCycles) := by
  intro n hn
  refine ⟨rfl, rfl, rfl, rfl, by decide, Nat.le_refl 1, fun h => ?_, (test_quiet_run _ rfl _)⟩
  have hl : n = 0 := (List.length_replicate (n := n) (a := (0xFF : Byte))).symm.trans (congrArg List.length h)
  rcases List.mem_pair.mp hn with rfl | rfl <;> cases hl

/-- A state in phase REASM with TIMEOUT, T, the count of bytes taken, the FIFO, and RXB. -/
def testReasm (timeout t : Word) (i : Half) (fifo : List Byte) (rxb : List Byte) : State :=
  { testState 0x09 .reasm (testCells 0x600 rxb) with
    regs := { State.reset.regs with timeout := timeout }
    line := { fifo := fifo, txlog := [] }
    seq := { State.reset.seq with cmd := 0x09, rxmode := true, t := t, i := i } }

/-- A timeout with and without a byte; no byte yet; a byte that completes V43's frame, and one that does not. -/
theorem test_witness_ReassemblyTakesAtMostOneByteACycle :
    Instr.ping ∈ channelInstrs ∧ Instr.ping ∈ replyInstrs ∧
      (let s := testReasm 7 7 1 [] [0xFF]
       s.phase = .reasm ∧ s.regs.timeout.toNat ≤ s.seq.t.toNat ∧ s.seq.i ≠ 0) ∧
      (let s := testReasm 0 0 0 [0xFF] []
       s.phase = .reasm ∧ s.regs.timeout.toNat ≤ s.seq.t.toNat ∧ s.seq.i = 0) ∧
      (let s := testReasm 1 0 0 [] []
       s.phase = .reasm ∧ s.seq.t.toNat < s.regs.timeout.toNat ∧ s.line.fifo = []) ∧
      (let s := testReasm 8 7 5 [0xFC] [0xFF, 0xFF, 0x01, 0x02, 0x00]
       s.phase = .reasm ∧ s.seq.t.toNat < s.regs.timeout.toNat ∧ s.line.fifo = 0xFC :: [] ∧ s.seq.i.toNat < 259 ∧
         decodeFrame (s.bytes 0x600 s.seq.i.toNat ++ [0xFC]) = .ok (0x01, [0x00])) ∧
      (let s := testReasm 8 7 259 [0xFC] []
       s.phase = .reasm ∧ s.seq.t.toNat < s.regs.timeout.toNat ∧ s.line.fifo = 0xFC :: [] ∧ ¬ s.seq.i.toNat < 259) := by
  decide +kernel

theorem test_witness_ReassemblyEndsByItsTimeout :
    ∀ n ∈ [(0 : Word), 1000],
      let s := testReasm n 0 0 [] []
      s.stat.busy = true ∧ s.phase = .reasm ∧ s.seq.t = 0 ∧ decode s.params s.fetch = .ok .ping ∧
        Instr.ping ∈ channelInstrs ∧ s.noReset (s.regs.timeout.toNat + 1) :=
  fun _ _ => ⟨rfl, rfl, rfl, rfl, by decide, (test_quiet_run _ rfl _)⟩

/-- One state for each clause of the parse: V50, V53, V55 and V122; RDD's cycle may stand in the same states. -/
theorem test_witness_SendAndRddEndWithTheStatus :
    let s (n : Half) (bs : List Byte) := testRun 0x06 .parse State.reset.regs n (testCells 0x600 bs)
    let f (t : State) := t.bytes 0x600 t.rxn.toNat
    (∀ n bs, (s n bs).atParseEnd) ∧ decodeFrame (f (s 6 [0xFF, 0xFF, 0x01, 0x02, 0x00, 0xFD])) = .error .badChecksum ∧
      decodeFrame (f (s 6 [0xFF, 0xFF, 0xFE, 0x02, 0x00, 0xFF])) = .ok (0xFE, [0x00]) ∧
      (decodeFrame (f (s 6 [0xFF, 0xFF, 0xFD, 0x02, 0x00, 0x00])) = .ok (0xFD, [0x00]) ∧ (0xFD : Byte) ≠ 0xFE) ∧
      decodeFrame (f (s 6 [0xFF, 0xFF, 0x01, 0x02, 0x80, 0x7C])) = .ok (0x01, [0x80]) :=
  ⟨fun _ _ => test_run_atParseEnd _ _ _ _, by decide +kernel⟩

/-- The same for WRD. -/
theorem test_witness_WrdDiscardsTheReplyButKeepsItsResult :
    let s (n : Half) (bs : List Byte) := testRun 0x08 .parse State.reset.regs n (testCells 0x600 bs)
    let f (t : State) := t.bytes 0x600 t.rxn.toNat
    (∀ n bs, (s n bs).atParseEnd) ∧ decodeFrame (f (s 6 [0xFF, 0xFF, 0x01, 0x02, 0x00, 0xFD])) = .error .badChecksum ∧
      decodeFrame (f (s 6 [0xFF, 0xFF, 0xFE, 0x02, 0x00, 0xFF])) = .ok (0xFE, [0x00]) ∧
      (decodeFrame (f (s 6 [0xFF, 0xFF, 0xFD, 0x02, 0x00, 0x00])) = .ok (0xFD, [0x00]) ∧ (0xFD : Byte) ≠ 0xFE) ∧
      decodeFrame (f (s 6 [0xFF, 0xFF, 0x01, 0x02, 0x80, 0x7C])) = .ok (0x01, [0x80]) :=
  ⟨fun _ _ => test_run_atParseEnd _ _ _ _, by decide +kernel⟩

/-- The same for PING of id 1: in V55 another id answers, in V122 the pinged one. -/
theorem test_witness_PingEndsWithPingok :
    let s (n : Half) (bs : List Byte) := testRun 0x09 .parse (testOps 0x01 0 0) n (testCells 0x600 bs)
    let f (t : State) := t.bytes 0x600 t.rxn.toNat
    (∀ n bs, (s n bs).atParseEnd) ∧ decodeFrame (f (s 6 [0xFF, 0xFF, 0x01, 0x02, 0x00, 0xFD])) = .error .badChecksum ∧
      decodeFrame (f (s 6 [0xFF, 0xFF, 0xFE, 0x02, 0x00, 0xFF])) = .ok (0xFE, [0x00]) ∧
      (decodeFrame (f (s 6 [0xFF, 0xFF, 0xFD, 0x02, 0x00, 0x00])) = .ok (0xFD, [0x00]) ∧ (0xFD : Byte) ≠ 0xFE) ∧
      decodeFrame (f (s 6 [0xFF, 0xFF, 0x01, 0x02, 0x80, 0x7C])) = .ok (0x01, [0x80]) :=
  ⟨fun _ _ => test_run_atParseEnd _ _ _ _, by decide +kernel⟩

/-- SCAN at the parse of id 2's reply, the last id being `hi`. -/
def testScanParse (hi : Byte) (n : Half) (bs : List Byte) : State :=
  { testRun 0x0A .parse { State.reset.regs with scanlo := 0x01, scanhi := hi } n (testCells 0x600 bs) with
    seq := { State.reset.seq with cmd := 0x0A, scanId := 0x02 } }

/-- V128's reply of id 2, with an id after it and as the last; V129's and V130's replies that do not count. -/
theorem test_witness_ScanCollectsMatchingResponders :
    (∀ hi n bs, (testScanParse hi n bs).atParseEnd) ∧
      (let s := testScanParse 0x03 6 [0xFF, 0xFF, 0x02, 0x02, 0x00, 0xFB]
       decodeFrame (s.bytes 0x600 s.rxn.toNat) = .ok (s.seq.scanId, [0x00]) ∧ s.seq.scanId ≠ 0xFE ∧
         statusCode 0x00 = .ok ∧ s.seq.scanM.toNat < 255 ∧ s.seq.scanId.toNat < s.regs.scanhi.toNat) ∧
      (let s := testScanParse 0x02 6 [0xFF, 0xFF, 0x02, 0x02, 0x00, 0x00]
       decodeFrame (s.bytes 0x600 s.rxn.toNat) = .error .badChecksum ∧
         s.regs.scanhi.toNat ≤ s.seq.scanId.toNat) ∧
      (let s := testScanParse 0x02 6 [0xFF, 0xFF, 0x02, 0x02, 0x20, 0xDB]
       decodeFrame (s.bytes 0x600 s.rxn.toNat) = .ok (s.seq.scanId, [0x20]) ∧ statusCode 0x20 ≠ .ok) :=
  ⟨fun _ _ _ => ⟨rfl, Nat.le_refl 1⟩, by decide +kernel⟩

/-- Each mode, before the last id and at it; in REASSEMBLE with TIMEOUT = 0 a byte in the FIFO is no reply (rule R220). -/
theorem test_witness_ScanGoesOnAfterNoReply :
    ∀ hi ∈ [(0x00 : Byte), 0x01],
      (let s := { testSnap [] none 0 with regs := { State.reset.regs with scanhi := hi } }
       (s.phase = .snap ∧ s.seq.snap = none ∧ s.line.fifo = []) ∧
         (s.seq.scanId.toNat < s.regs.scanhi.toNat ∨ s.regs.scanhi.toNat ≤ s.seq.scanId.toNat)) ∧
      (let s := { testReasm 0 0 0 [0xFF] [] with regs := { State.reset.regs with scanhi := hi } }
       (s.phase = .reasm ∧ s.regs.timeout.toNat ≤ s.seq.t.toNat ∧ s.seq.i = 0) ∧
         (s.seq.scanId.toNat < s.regs.scanhi.toNat ∨ s.regs.scanhi.toNat ≤ s.seq.scanId.toNat)) := by decide +kernel

/-- V118: PING of id 1 with SETTLE = 0, whose reply's first byte arrives after the flush. -/
theorem test_witness_PingExchangesOneFrame :
    let s := { testRun 0x09 .localCmd (testOps 0x01 0 0) 0 [] with
      script := List.replicate 5 Inputs.quiet ++ [{ Inputs.quiet with rx := [0xFF, 0xFF, 0x01, 0x02, 0x00, 0xFC] }] }
    let pre := s.params.buildCycles + s.params.flushCycles
    let reply := ((s.arrivals (pre + 6 + s.regs.settle.toNat)).drop (s.arrivals (pre - 1)).length).take 0xFFFF
    let total := pre + 6 + s.regs.settle.toNat + 1 + reply.length * s.params.popCycles + s.params.parseCycles
    s.stat.busy = true ∧ s.phase = .localCmd ∧ s.seq.dly = 0 ∧ s.seq.cmd = 0x09 ∧ s.seq.rxmode = false ∧
      s.stat.opened = true ∧ s.regs.id ≠ 0xFF ∧ s.params.CyclesOk ∧ reply ≠ [] ∧ s.noReset total ∧
      s.txReadyFor total := by
  refine ⟨rfl, rfl, rfl, rfl, rfl, rfl, by decide +kernel, by decide +kernel, by decide +kernel, ?_, ?_⟩
  · unfold State.noReset
    decide +kernel
  · unfold State.txReadyFor
    decide +kernel

/-- A running command; then IDLE without a host access, with a read, and with a write of CMD and of ID. -/
theorem test_witness_StepRunsTheDecodedInstruction :
    (let s := testState 0x0C .localCmd []
     s.now.rst = false ∧ s.stat.busy = true ∧ decode s.params s.fetch = .ok .closeCh) ∧
    (State.reset.now.rst = false ∧ State.reset.stat.busy = false ∧ State.reset.now.host = none) ∧
    ∀ o ∈ [HostOp.rd 0x002, .wr 0x000 0x09, .wr 0x004 0x05],
      let s := testHost State.reset o
      s.now.rst = false ∧ s.stat.busy = false ∧ s.now.host = some o :=
  ⟨⟨rfl, rfl, rfl⟩, ⟨rfl, rfl, rfl⟩, fun _ _ => ⟨rfl, rfl, rfl⟩⟩

theorem test_witness_IllegalCommandEndsWithBadCommand :
    ∀ c ∈ [(0x00 : Byte), 0x0D, 0xFF],
      let s := testState c .localCmd []
      s.now.rst = false ∧ s.stat.busy = true ∧ s.atLocalEnd ∧ commandOf s.seq.cmd = none := by
  intro c hc
  refine ⟨rfl, rfl, ⟨rfl, Nat.le_refl 1⟩, ?_⟩
  revert c
  decide

/-- A cycle of a command, alone and within a step. -/
theorem test_witness_OperandsAreFrozenWhileBusy :
    (∃ t, exec .openCh (testState 0x0B .localCmd []) = .next t) ∧
      ((testState 0x0B .localCmd []).now.rst = false ∧ (testState 0x0B .localCmd []).stat.busy = true ∧
        ∃ t, step (testState 0x0B .localCmd []) = .next t) := ⟨⟨_, rfl⟩, rfl, rfl, ⟨_, rfl⟩⟩

/-- A cycle that ends its command, and one that does not. -/
theorem test_witness_ResultIsWrittenOnlyAtTheEnd :
    (∃ t, exec .closeCh (testState 0x0C .localCmd []) = .next t) ∧
      ∃ t, exec .send (testState 0x06 .flush []) = .next t := ⟨⟨_, rfl⟩, ⟨_, rfl⟩⟩

/-- A cycle of TX, one of the flush, and one of a local instruction. -/
theorem test_witness_OnlyTheTxPhaseHandsOverBytes :
    (∃ t, exec .send (testTx 6 0 true) = .next t) ∧ (∃ t, exec .rdd (testState 0x07 .flush []) = .next t) ∧
      (Instr.isLocal .closeCh = true ∧ ∃ t, exec .closeCh (testState 0x0C .localCmd []) = .next t) :=
  ⟨⟨_, rfl⟩, ⟨_, rfl⟩, rfl, ⟨_, rfl⟩⟩

theorem test_witness_StatusBitsHaveTheirOwnWriters :
    (∃ t, exec .send (testState 0x06 .flush []) = .next t) ∧ Instr.send ≠ .ping ∧ Instr.send ≠ .scan ∧
      Instr.send ≠ .openCh ∧ Instr.send ≠ .closeCh := ⟨⟨_, rfl⟩, by decide⟩

theorem test_witness_WritingCmdAcceptsTheCommand : State.reset.stat.busy = false := rfl

/-- The first and the last address of each range of rule R77, and one address for each other clause. -/
theorem test_witness_BusyWritesAreDroppedWithOvr :
    (testState 0x06 .flush []).stat.busy = true ∧
      (∀ a ∈ [0x000, 0x004, 0x009, 0x00E, 0x00F, 0x014, 0x015, 0x018, 0x023, 0x100, 0x1FF, 0x600, 0x702],
        lockedAddr a) ∧
      (∀ a ∈ [0x016, 0x0FF, 0x503, 0xFFF], reservedAddr a) ∧ ∀ a ∈ [0x003, 0x00D, 0x013, 0x502], readOnlyAddr a := by
  refine ⟨rfl, ?_⟩
  unfold lockedAddr reservedAddr readOnlyAddr
  simp

/-- No address stands under two clauses that give a write different outcomes. -/
theorem test_write_clauses_do_not_meet :
    ¬ lockedAddr 0x001 ∧ ¬ lockedAddr 0x002 ∧
      ∀ a < 0x1000, (lockedAddr a → ¬ reservedAddr a ∧ ¬ readOnlyAddr a) ∧
        (reservedAddr a ∨ readOnlyAddr a → a ≠ 0x000 ∧ a ≠ 0x001 ∧ a ≠ 0x002) := by
  unfold lockedAddr reservedAddr readOnlyAddr
  refine ⟨by omega, by omega, fun a _ => ⟨fun h => by omega, fun h => by omega⟩⟩

/-- A read in IDLE of a written buffer entry, and a read while a command runs of a register that is defined then. -/
theorem test_witness_HostReadsTheRegisterMap :
    (let s := { testHost State.reset (.rd 0x100) with mem := testCells 0x100 [0x2B] }
     s.now.host = some (.rd 0x100) ∧ s.stat.busy = false ∧ bufferAddr (0x100 : Addr).toNat = true ∧
       Mem.read s.mem (0x100 : Addr).toNat = some 0x2B) ∧
      (let s := testHost (testState 0x06 .flush []) (.rd 0x023)
       s.now.host = some (.rd 0x023) ∧ ¬ hiddenAddr (0x023 : Addr).toNat ∧ (0x023 : Addr).toNat < 0x24) := by
  unfold hiddenAddr
  decide +kernel

theorem test_witness_HostWritesReadBack :
    State.reset.stat.busy = false ∧ plainRw (0x004 : Addr).toNat ∧ plainRw (0x702 : Addr).toNat ∧
      reservedAddr (0x703 : Addr).toNat ∧ readOnlyAddr (0x200 : Addr).toNat := by
  unfold plainRw lockedAddr reservedAddr readOnlyAddr
  decide +kernel

theorem test_witness_ResetEdgeGivesTheResetState :
    { testState 0x06 .tx [] with script := [{ Inputs.quiet with rst := true }] }.now.rst = true := rfl

/-- OPEN running right after reset meets the invariant, and its step answers a next state. -/
theorem test_witness_StepKeepsTheInvariant :
    let s := { testState 0x0B .localCmd [] with stat := { State.reset.stat with busy := true } }
    s.Inv ∧ ∃ t, step s = .next t := by
  refine ⟨?_, ⟨_, rfl⟩⟩
  constructor <;> simp [testState, State.reset, Mem.Wf, Phase.exchange, State.scanning]

/-- The same for a state in phase SNAP with a byte still to be popped. -/
theorem test_witness_InvariantRulesOutEveryStop :
    (testSnap [0xFF] (some 1) 0).Inv := by
  constructor <;>
    simp [testSnap, testState, State.reset, Mem.Wf, Phase.exchange, State.scanning, channelCode, State.received]

/-- One state for each step, with two cycles for every step of several. -/
def testWait (ph : Phase) (n : Option Half) : State :=
  { testState 0x0A ph [] with
    params := { Params.default with
      latLocal := 2, buildCycles := 2, flushCycles := 2, popCycles := 2, parseCycles := 2, scanStepCycles := 2 }
    seq := { State.reset.seq with cmd := 0x0A, snap := n } }

theorem test_witness_WaitingCyclesChangeOnlyTheirCount :
    Instr.isLocal .chk = true ∧ Instr.scan ∈ channelInstrs ∧ Instr.scan ≠ .ping ∧ Instr.ping ∈ channelInstrs ∧
    (∀ ph, (testWait ph none).phase = ph) ∧ (testWait .snap (some 1)).seq.snap = some 1 ∧
    let s := testWait .snap (some 1)
    s.seq.dly + 1 < s.params.latLocal ∧ s.seq.dly + 1 < s.params.buildCycles ∧ s.seq.dly + 1 < s.params.flushCycles ∧
      s.seq.dly + 1 < s.params.popCycles ∧ s.seq.dly + 1 < s.params.parseCycles ∧
      s.seq.dly + 1 < s.params.scanStepCycles :=
  ⟨rfl, by decide, by decide, by decide, fun _ => rfl, rfl, by decide +kernel⟩

end
end

