-- ==== Sys2Proof/Proofs/StatWrite.lean ====
section
/-! PROOF. Sys2Proof/Proofs/StatWrite.lean: the write of STAT (rules R26, R28, R30, R266), from the bits of a byte of flags. -/

namespace Sys2Proof.Machine

/-! ## The bits of STAT's byte -/

/-- A flag at place `k` is one bit, and every other bit is zero. -/
theorem flagBit_getLsbD (b : Bool) (k : Nat) {i : Nat} (hi : i < 8) :
    (flagBit b k).getLsbD i = (b && decide (k = i)) := by
  cases b with
  | false => simp [flagBit]
  | true =>
    rw [flagBit, if_pos rfl, BitVec.getLsbD_ofNat, Nat.testBit_two_pow]
    simp [hi]

/-- Which flag stands at which bit of STAT (rules R25 to R29). -/
theorem Stat.byte_getLsbD (s : Stat) {i : Nat} (hi : i < 8) :
    s.byte.getLsbD i =
      (s.busy && decide (0 = i) || s.done && decide (1 = i) || s.opened && decide (2 = i) || s.ovr && decide (3 = i) ||
        s.pingok && decide (4 = i)) := by
  simp only [Stat.byte, BitVec.getLsbD_or, flagBit_getLsbD _ _ hi]

/-- The reserved bits 7:5 of STAT read as zero (rule R30). -/
theorem Stat.byte_reserved (s : Stat) : s.byte &&& 0xE0 = 0 := by
  refine BitVec.eq_of_getLsbD_eq fun i hi => ?_
  rw [BitVec.getLsbD_and, s.byte_getLsbD hi]
  interval_cases i <;> simp

/-- Clearing DONE and OVR where `d` has a 1 clears bits 1 and 3 of the byte and keeps the others. -/
theorem Stat.byte_writeOneToClear (s : Stat) (d : Byte) :
    { s with done := s.done && !d.getLsbD 1, ovr := s.ovr && !d.getLsbD 3 : Stat }.byte =
      s.byte &&& ~~~ (d &&& 0x0A) := by
  refine BitVec.eq_of_getLsbD_eq fun i hi => ?_
  rw [BitVec.getLsbD_and, BitVec.getLsbD_not, BitVec.getLsbD_and, Stat.byte_getLsbD _ hi, Stat.byte_getLsbD _ hi]
  interval_cases i <;> simp

/-! ## The write -/

/-- A running command does not lock STAT, so a write reaches it whatever BUSY is (rules R30, R77). -/
theorem State.busWrite_stat (s : State) (d : Byte) {a : Addr} (ha : locate a.toNat = .stat) :
    s.busWrite a d =
      s.setStat { s.stat with done := s.stat.done && !d.getLsbD 1, ovr := s.stat.ovr && !d.getLsbD 3 } := by
  have hfree : ¬ (s.stat.busy && Loc.locked .stat) = true := by simp [Loc.locked]
  rw [State.busWrite, ha, if_neg hfree, State.writeLoc]

/-- Settles O54: the write replaces STAT alone, and the new byte is read off bit by bit. -/
theorem statIsWriteOneToClear : Obligations.StatIsWriteOneToClear := by
  intro s d
  have hwrite := s.busWrite_stat d (a := 0x002) rfl
  simp only [hwrite]
  exact ⟨rfl, s.stat.byte_writeOneToClear d, Stat.byte_reserved _, rfl⟩

end Sys2Proof.Machine
end

