-- ==== Sys2Proof/Proofs/BusyWrite.lean ====
section
/-! PROOF. Sys2Proof/Proofs/BusyWrite.lean: host writes while a command runs (rule R77), from which addresses of rule R71
are locked, CTRL or STAT. -/

namespace Sys2Proof.Machine

/-! ## What a write meets at each address -/

/-- A running command locks the places at the addresses that rule R77 lists, and no others. -/
theorem locate_locked_iff (a : Nat) : (locate a).locked = true ↔ lockedAddr a := by
  by_cases ha : a < 0x100
  · have hregs : ∀ a < 0x100, (locate a).locked = true ↔ lockedAddr a := by
      unfold lockedAddr
      decide +kernel
    exact hregs a ha
  · rw [locate_high (by omega)]
    unfold lockedAddr
    split_ifs <;> simp only [Loc.locked, true_iff, Bool.false_eq_true, false_iff] <;> omega

/-- CTRL and STAT stand at one address each (rule R71). -/
theorem locate_ctrl_stat_iff (a : Nat) : (locate a = .ctrl ↔ a = 0x001) ∧ (locate a = .stat ↔ a = 0x002) := by
  by_cases ha : a < 0x100
  · have hregs : ∀ a < 0x100, (locate a = .ctrl ↔ a = 0x001) ∧ (locate a = .stat ↔ a = 0x002) := by decide +kernel
    exact hregs a ha
  · rw [locate_high (by omega)]
    split_ifs <;> simp only [false_iff] <;> omega

/-- What is reserved or read-only is outside the list of rule R77, and it is neither CTRL nor STAT. -/
theorem not_writable_of_reserved_or_readOnly {a : Nat} (h : reservedAddr a ∨ readOnlyAddr a) :
    ¬ lockedAddr a ∧ a ≠ 0x001 ∧ a ≠ 0x002 := by
  unfold reservedAddr readOnlyAddr at h
  unfold lockedAddr
  omega

/-! ## The write -/

/-- While BUSY = 1 a locked place drops the write, and OVR is set (rules R28, R77). -/
theorem State.busWrite_locked {s : State} {a : Addr} (d : Byte) (hb : s.stat.busy = true)
    (ha : (locate a.toNat).locked = true) : s.busWrite a d = s.setStat { s.stat with ovr := true } := by
  rw [State.busWrite, if_pos (by rw [hb, ha]; rfl)]

/-- A place that is not locked takes the write whatever BUSY is (rule R77). -/
theorem State.busWrite_unlocked (s : State) {a : Addr} (d : Byte) (ha : (locate a.toNat).locked = false) :
    s.busWrite a d = s.writeLoc a.toNat d (locate a.toNat) := by
  rw [State.busWrite, if_neg (by simp [ha])]

/-- Of the places that are not locked, all but CTRL and STAT ignore the write (rules R72, R76). -/
theorem State.writeLoc_ignored (s : State) (a : Nat) (d : Byte) {l : Loc} (hfree : l.locked = false)
    (hctrl : l ≠ .ctrl) (hstat : l ≠ .stat) : s.writeLoc a d l = s := by
  cases l with
  | ctrl => exact absurd rfl hctrl
  | stat => exact absurd rfl hstat
  | rc | csum | rid | rerr | qn | scann | phase | txn _ | reserved => rfl
  | cmd | id | opc | pn _ | addr | rlen | scanlo | scanhi | rxn _ | settle _ | timeout _ | baud _ => cases hfree
  | entry b =>
    cases b with
    | qb | scanlist | txb => rfl
    | pb | rxb => cases hfree

/-- CTRL stores IE and RXMODE whatever BUSY is (rules R24, R77). -/
theorem State.busWrite_ctrl (s : State) {a : Addr} (d : Byte) (ha : a.toNat = 0x001) :
    s.busWrite a d = s.setCtrl { ie := d.getLsbD 0, rxmode := d.getLsbD 1 } := by
  have hloc : locate a.toNat = .ctrl := (locate_ctrl_stat_iff _).1.mpr ha
  rw [s.busWrite_unlocked d (by rw [hloc]; rfl), hloc, State.writeLoc]

/-- A write to a reserved or read-only address changes nothing, not even OVR (rules R72, R76). -/
theorem State.busWrite_reserved_or_readOnly (s : State) {a : Addr} (d : Byte)
    (ha : reservedAddr a.toNat ∨ readOnlyAddr a.toNat) : s.busWrite a d = s := by
  obtain ⟨hlock, hne_ctrl, hne_stat⟩ := not_writable_of_reserved_or_readOnly ha
  obtain ⟨hctrl, hstat⟩ := locate_ctrl_stat_iff a.toNat
  have hfree : (locate a.toNat).locked = false := Bool.eq_false_iff.mpr (mt (locate_locked_iff _).mp hlock)
  rw [s.busWrite_unlocked d hfree, s.writeLoc_ignored _ d hfree (mt hctrl.mp hne_ctrl) (mt hstat.mp hne_stat)]

/-- Settles O51: rule R77's list is exactly what is locked, so every other address takes the write as it does in IDLE. -/
theorem busyWritesAreDroppedWithOvr : Obligations.BusyWritesAreDroppedWithOvr := by
  intro s a d hb
  refine ⟨fun hlisted => ?_, s.busWrite_ctrl d, fun hstat => ?_, s.busWrite_reserved_or_readOnly d⟩
  · exact State.busWrite_locked d hb ((locate_locked_iff _).mpr hlisted)
  · exact s.busWrite_stat d ((locate_ctrl_stat_iff _).2.mpr hstat)

end Sys2Proof.Machine
end

