-- ==== Sys2Proof/Proofs/ChecksumUnit.lean ====
section
/-! PROOF. Sys2Proof/Proofs/ChecksumUnit.lean: the checksum function (rules R120 to R122), the streaming accumulator
(rules R124 to R127) and CHK (rule R128). -/

namespace Sys2Proof.Machine

/-! ## The checksum function -/

/-- Settles O5: the complement of a byte is 0xFF minus it, and the 8-bit sum is the exact one modulo 256. -/
theorem checksumComplementsTheSum : Obligations.ChecksumComplementsTheSum := by
  intro s c h
  obtain ⟨-, -, -, rfl⟩ := checksumOf_ok h
  rw [BitVec.toNat_not, BitVec.toNat_ofNat]
  omega

theorem checksumOf_short {n : Nat} (s : List Byte) (h : n < 3) : checksumOf n s = .error .csShort := if_pos h

theorem checksumOf_id {n : Nat} {s : List Byte} (h3 : 3 ≤ n) (hid : s.getD 0 0 = 0xFF) :
    checksumOf n s = .error .csId := by
  rw [checksumOf, if_neg (by omega), if_pos hid]

theorem checksumOf_length {n : Nat} {s : List Byte} (h3 : 3 ≤ n) (hid : s.getD 0 0 ≠ 0xFF)
    (hl : (s.getD 1 0).toNat ≠ n - 1) : checksumOf n s = .error .csLength := by
  rw [checksumOf, if_neg (by omega), if_neg hid, if_pos hl]

/-! ## The streaming accumulator -/

/-- What the unit holds once it has been cleared and fed with `s` (tied to the edges by `Csu.foldl_edge_clear`). -/
def Csu.fedWith (s : List Byte) : Csu :=
  { acc := BitVec.ofNat 8 (byteSum s), cnt := BitVec.ofNat 9 (min s.length 511), b0 := s.getD 0 0, b1 := s.getD 1 0 }

theorem Csu.fedWith_cnt_toNat (s : List Byte) : (Csu.fedWith s).cnt.toNat = min s.length 511 := by
  rw [Csu.fedWith, BitVec.toNat_ofNat]
  omega

/-- Below its saturation the counter holds the number of bytes fed. -/
theorem Csu.fedWith_cnt_eq_iff (s : List Byte) {k : BitVec 9} (hk : k.toNat < 511) :
    (Csu.fedWith s).cnt = k ↔ s.length = k.toNat := by
  rw [← BitVec.toNat_inj, Csu.fedWith_cnt_toNat]
  omega

/-- An entry of a list with one more byte: the new byte, if this is its place. -/
theorem getD_concat (s : List Byte) (b : Byte) (k : Nat) :
    (s ++ [b]).getD k 0 = if s.length = k then b else s.getD k 0 := by
  rcases lt_trichotomy s.length k with h | h | h
  · rw [if_neg h.ne, List.getD_eq_default _ _ (by simp; omega), List.getD_eq_default _ _ h.le]
  · subst h
    simp
  · rw [if_neg h.ne', List.getD_append _ _ _ _ h]

/-- One more byte fed (rule R125). -/
theorem Csu.feed_fedWith (s : List Byte) (b : Byte) : (Csu.fedWith s).feed b = Csu.fedWith (s ++ [b]) := by
  have hacc : (Csu.fedWith s).acc + b = (Csu.fedWith (s ++ [b])).acc := by
    simp [Csu.fedWith, byteSum_append, BitVec.ofNat_add]
  have hcnt : (if (Csu.fedWith s).cnt = 511 then 511 else (Csu.fedWith s).cnt + 1) = (Csu.fedWith (s ++ [b])).cnt := by
    have hs := Csu.fedWith_cnt_toNat s
    have hsb := Csu.fedWith_cnt_toNat (s ++ [b])
    rw [List.length_append, List.length_singleton] at hsb
    split_ifs with hsat <;> bv_omega
  have hb0 : (if (Csu.fedWith s).cnt = 0 then b else s.getD 0 0) = (s ++ [b]).getD 0 0 :=
    (if_congr (Csu.fedWith_cnt_eq_iff s (by decide)) rfl rfl).trans (getD_concat s b 0).symm
  have hb1 : (if (Csu.fedWith s).cnt = 1 then b else s.getD 1 0) = (s ++ [b]).getD 1 0 :=
    (if_congr (Csu.fedWith_cnt_eq_iff s (by decide)) rfl rfl).trans (getD_concat s b 1).symm
  exact (Csu.mk.injEq ..).mpr ⟨hacc, hcnt, hb0, hb1⟩

/-- An edge with a clear, then a feed edge for each byte, by induction on the last byte. -/
theorem Csu.foldl_edge_clear (u : Csu) (v : Bool) (x : Byte) (s : List Byte) :
    s.foldl (fun c b => c.edge false true b) (u.edge true v x) = Csu.fedWith s := by
  induction s using List.reverseRecOn with
  | nil => rfl
  | append_singleton s b ih =>
    rw [List.foldl_append, ih]
    exact Csu.feed_fedWith s b

/-- `cs_code` makes the checks of rule R120 on the whole input: a saturated count is past every length byte (rule R127). -/
theorem Csu.fedWith_code (s : List Byte) : (Csu.fedWith s).code =
    if s.length < 3 then .csShort
    else if s.getD 0 0 = 0xFF then .csId
    else if (s.getD 1 0).toNat ≠ s.length - 1 then .csLength
    else .ok := by
  have hbyte : (s.getD 1 0).toNat < 256 := (s.getD 1 0).isLt
  have hshort : min s.length 511 < 3 ↔ s.length < 3 := by omega
  have hlength : (s.getD 1 0).toNat ≠ min s.length 511 - 1 ↔ (s.getD 1 0).toNat ≠ s.length - 1 := by omega
  rw [Csu.code, Csu.fedWith_cnt_toNat]
  simp only [hshort, Csu.fedWith, hlength]

theorem Csu.fedWith_of_checksum_ok {s : List Byte} {c : Byte} (h : checksum s = .ok c) :
    (Csu.fedWith s).isOk = true ∧ (Csu.fedWith s).sum = c := by
  obtain ⟨h3, hid, hl, rfl⟩ := checksumOf_ok h
  have hcode : (Csu.fedWith s).code = .ok := by
    rw [Csu.fedWith_code, if_neg (by omega), if_neg hid, if_neg (not_not.mpr hl)]
  exact ⟨decide_eq_true hcode, rfl⟩

theorem Csu.fedWith_of_checksum_error {s : List Byte} {e : ResultCode} (h : checksum s = .error e) :
    (Csu.fedWith s).isOk = false ∧ (Csu.fedWith s).code = e := by
  rw [Csu.isOk, Csu.fedWith_code]
  rcases checksumOf_error h with ⟨rfl, h3⟩ | ⟨rfl, h3, hid⟩ | ⟨rfl, h3, hid, hl⟩
  · rw [if_pos h3]
    exact ⟨rfl, rfl⟩
  · rw [if_neg (by omega), if_pos hid]
    exact ⟨rfl, rfl⟩
  · rw [if_neg (by omega), if_neg hid, if_pos hl]
    exact ⟨rfl, rfl⟩

/-- Settles O6: the edges leave the unit as `Csu.fedWith` says, and its outputs there are the function's result. -/
theorem streamedChecksumIsTheFunction : Obligations.StreamedChecksumIsTheFunction := by
  intro u v x s
  rw [Csu.foldl_edge_clear]
  exact ⟨fun _ => Csu.fedWith_of_checksum_ok, fun _ => Csu.fedWith_of_checksum_error⟩

/-! ## CHK -/

/-- CHK reads the entries of PB below PN (rule R97). -/
theorem State.chkInput_getD (s : State) {k : Nat} (hn : k < s.regs.pn.toNat) (hk : k < 256) :
    s.chkInput.getD k 0 = s.peek (0x100 + k) k :=
  s.bytes_getD 0x100 _ k 0 (lt_min hn hk)

theorem State.chkInput_eq {s : State} (h : s.regs.pn.toNat ≤ 256) : s.chkInput = s.bytes 0x100 s.regs.pn.toNat := by
  rw [State.chkInput, Config.byteBufDepth, Nat.min_eq_left h]
  rfl

theorem State.chkAct_of_error {s : State} {e : ResultCode} (hc : checksumOf s.regs.pn.toNat s.chkInput = .error e) :
    s.chkAct = s.finish e := by
  rw [State.chkAct, hc]

theorem State.chkAct_of_ok {s : State} {c : Byte} (hc : checksumOf s.regs.pn.toNat s.chkInput = .ok c) :
    s.chkAct = ((s.setCsu (Csu.stream s.chkInput)).setRes { s.res with csum := c }).finish .ok := by
  rw [State.chkAct, hc]

/-- CHK's last cycle where a check fails: the code, and the command's end (rules R128, R262). -/
theorem exec_chk_of_error {s : State} {e : ResultCode} (h : s.atLocalEnd)
    (hc : checksumOf s.regs.pn.toNat s.chkInput = .error e) : exec .chk s = .next (s.finish e) :=
  (State.localCycle_last State.chkAct h).trans (congrArg _ (State.chkAct_of_error hc))

/-- CHK's last cycle where every check passes: CSUM and the checksum unit are written, too (rule R128). -/
theorem exec_chk_of_ok {s : State} {c : Byte} (h : s.atLocalEnd)
    (hc : checksumOf s.regs.pn.toNat s.chkInput = .ok c) :
    exec .chk s = .next (((s.setCsu (Csu.stream s.chkInput)).setRes { s.res with csum := c }).finish .ok) :=
  (State.localCycle_last State.chkAct h).trans (congrArg _ (State.chkAct_of_ok hc))

/-- Settles O13: each clause is one outcome of the checksum of CHK's input; a length byte that fits bounds PN by 256, so that
the input is all of `PB[0..PN-1]`. -/
theorem chkEndsWithTheChecksum : Obligations.ChkEndsWithTheChecksum := by
  refine ⟨fun _ _ => rfl, fun s h => ?_⟩
  intro n
  have hid : 3 ≤ n → s.chkInput.getD 0 0 = s.peek 0x100 0 := fun h3 => s.chkInput_getD (by omega) (by omega)
  have hlen : 3 ≤ n → s.chkInput.getD 1 0 = s.peek 0x101 1 := fun h3 => s.chkInput_getD (by omega) (by omega)
  refine ⟨fun h3 => ?_, fun h3 hff => ?_, fun h3 hne hl => ?_, fun h3 hne hl => ?_⟩
  · exact exec_chk_of_error h (checksumOf_short _ h3)
  · exact exec_chk_of_error h (checksumOf_id h3 (by rwa [hid h3]))
  · exact exec_chk_of_error h (checksumOf_length h3 (by rwa [hid h3]) (by rwa [hlen h3]))
  · have hn : n ≤ 256 := by
      have hbyte := (s.peek 0x101 1).isLt
      omega
    have hok := checksumOf_eq h3 (by rwa [hid h3]) (by rwa [hlen h3])
    refine ⟨_, exec_chk_of_ok h hok, ?_⟩
    rw [State.chkInput_eq hn]
    rfl

end Sys2Proof.Machine
end

