-- ==== Sys2Proof/Proofs/FrameCodec.lean ====
section
/-! PROOF. Sys2Proof/Proofs/FrameCodec.lean: the decoder's five steps on a whole sequence (rules R142 to R146), the round trip of a
frame (rule R164), the builder (rule R149) and the result of a status error byte (rules R159 to R161). -/

namespace Sys2Proof.Machine

/-! ## The decoder on a whole sequence -/

theorem not_badHeader {a b : Byte} (ha : a = 0xFF) (hb : b = 0xFF) : ¬ (a ≠ 0xFF ∨ b ≠ 0xFF) :=
  not_or.mpr ⟨not_not.mpr ha, not_not.mpr hb⟩

/-- What the checksum covers starts at position 2 and leaves out the checksum byte (rule R145). -/
theorem interior_getD {f : List Byte} {k : Nat} (h : k + 3 < f.length) :
    (f.dropLast.drop 2).getD k 0 = f.getD (k + 2) 0 := by
  rw [List.getD_eq_getElem?_getD, List.getElem?_drop, List.getElem?_dropLast, if_pos (by omega),
    Nat.add_comm, List.getD_eq_getElem?_getD]

/-- Once the length byte fits, the checksum of a frame's interior can only fail on the id (rule R145). -/
theorem checksum_interior {f : List Byte} (h6 : 6 ≤ f.length) (hl : (f.getD 3 0).toNat = f.length - 4) :
    checksum (f.dropLast.drop 2) =
      if f.getD 2 0 = 0xFF then .error .csId else .ok (~~~ (BitVec.ofNat 8 (byteSum (f.dropLast.drop 2)))) := by
  have hlen : (f.dropLast.drop 2).length = f.length - 3 := by
    rw [List.length_drop, List.length_dropLast]
    omega
  have h3 : 3 ≤ (f.dropLast.drop 2).length := by omega
  have hid : (f.dropLast.drop 2).getD 0 0 = f.getD 2 0 := interior_getD (by omega)
  have hlb : (f.dropLast.drop 2).getD 1 0 = f.getD 3 0 := interior_getD (by omega)
  split_ifs with hff
  · exact checksumOf_id h3 (hid.trans hff)
  · exact checksumOf_eq h3 (by rwa [hid]) (by rw [hlb, hlen, hl]; omega)

/-- The decoder in closed form: five checks in the order of rule R142, with the id before the checksum byte (rule R145). -/
theorem decodeFrame_eq (f : List Byte) : decodeFrame f =
    if f.length < 6 then .error .frameShort
    else if f.getD 0 0 ≠ 0xFF ∨ f.getD 1 0 ≠ 0xFF then .error .badHeader
    else if (f.getD 3 0).toNat ≠ f.length - 4 then .error .badLength
    else if f.getD 2 0 = 0xFF then .error .badId
    else if f.getLastD 0 ≠ ~~~ (BitVec.ofNat 8 (byteSum (f.dropLast.drop 2))) then .error .badChecksum
    else .ok (f.getD 2 0, f.dropLast.drop 4) := by
  rw [decodeFrame]
  rcases decodeCounted_cases f.length f with
    ⟨hshort, hd⟩ | ⟨h6, hheader, hd⟩ | ⟨h6, h0, h1, hl, hd⟩ | ⟨h6, h0, h1, hl, hd⟩
  · rw [hd, if_pos hshort]
  · rw [hd, if_neg h6.not_gt, if_pos hheader]
  · rw [hd, if_neg h6.not_gt, if_neg (not_badHeader h0 h1), if_pos hl]
  · rw [if_neg h6.not_gt, if_neg (not_badHeader h0 h1), if_neg (not_not.mpr hl), hd, checksum_interior h6 hl]
    by_cases hff : f.getD 2 0 = 0xFF
    · rw [if_pos hff, if_pos hff]
    · rw [if_neg hff, if_neg hff, if_neg (mt (lt_idMaxInstr_iff _).mp hff)]
      exact if_congr ne_comm rfl rfl

/-- Settles O10: each clause is one exit of the closed form. -/
theorem checksumStepRefusesIdFfFirst : Obligations.ChecksumStepRefusesIdFfFirst := by
  intro f c
  rw [decodeFrame_eq]
  refine ⟨fun h => if_pos h, fun h6 hheader => ?_, fun h6 h0 h1 => ?_⟩
  · rw [if_neg h6.not_gt, if_pos hheader]
  · rw [if_neg h6.not_gt, if_neg (not_badHeader h0 h1)]
    refine ⟨fun hl => if_pos hl, fun hl => ?_⟩
    rw [if_neg (not_not.mpr hl)]
    refine ⟨fun hid => if_pos hid, fun hid hc => ?_, fun hid hc => ?_⟩
    · rw [if_neg hid, if_pos hc]
    · rw [if_neg hid, if_neg (not_not.mpr hc)]

/-- The decoder never answers id 0xFF (rule R145). -/
theorem decodeFrame_ok_id {f : List Byte} {id : Byte} {p : List Byte} (h : decodeFrame f = .ok (id, p)) : id ≠ 0xFF := by
  rw [decodeFrame_eq] at h
  split_ifs at h with _ _ _ hid
  cases h
  exact hid

/-! ## The round trip -/

/-- The sum that the checksum byte of a frame complements is the one the decoder computes (rules R91, R140). -/
theorem frameLayout_sum (id : Byte) {p : List Byte} (h : p.length ≤ 254) :
    byteSum ((frameLayout id p).dropLast.drop 2) = id.toNat + (p.length + 1) + byteSum p := by
  rw [(frameLayout_parts id p).2.1, byteSum_cons, byteSum_cons, BitVec.toNat_ofNat, Nat.mod_eq_of_lt (by omega)]
  omega

/-- The decoder undoes the layout of rule R91 (rule R164). -/
theorem decodeFrame_frameLayout {id : Byte} {p : List Byte} (hid : id ≠ 0xFF) (h1 : 1 ≤ p.length) (h2 : p.length ≤ 254) :
    decodeFrame (frameLayout id p) = .ok (id, p) := by
  obtain ⟨hlast, -, hpayload⟩ := frameLayout_parts id p
  obtain ⟨-, -, hchecks⟩ := checksumStepRefusesIdFfFirst (frameLayout id p)
  have hlen := frameLayout_length id p
  have hl : ((frameLayout id p).getD 3 0).toNat = (frameLayout id p).length - 4 := by
    rw [hlen]
    exact (BitVec.toNat_ofNat ..).trans (Nat.mod_eq_of_lt (by omega))
  have hok := ((hchecks (by omega) rfl rfl).2 hl).2.2 hid (by rw [hlast, frameLayout_sum id h2])
  rwa [hpayload] at hok

/-! ## The status parser -/

theorem parseStatus_of_error {n : Nat} {f : List Byte} {e : ResultCode} (h : decodeCounted n f = .error e) :
    parseStatus n f = .malformed e := by
  rw [parseStatus, h]

/-- A reply cannot come from the broadcast id (rule R158). -/
theorem parseStatus_of_broadcast {n : Nat} {f p : List Byte} (h : decodeCounted n f = .ok (0xFE, p)) :
    parseStatus n f = .malformed .badReplyId := by
  rw [parseStatus, h]
  exact if_pos ((lt_idMaxReply_iff _).mpr (.inl rfl))

theorem parseStatus_of_ok {n : Nat} {f : List Byte} {id : Byte} {p : List Byte} (h : decodeCounted n f = .ok (id, p))
    (hfe : id ≠ 0xFE) (hff : id ≠ 0xFF) :
    parseStatus n f = .status { id := id, err := p.headD 0, params := p.tail } := by
  rw [parseStatus, h, List.headD_eq_head?_getD, List.head?_eq_getElem?, ← List.getD_eq_getElem?_getD]
  exact if_neg (mt (lt_idMaxReply_iff id).mp (not_or.mpr ⟨hfe, hff⟩))

/-- Settles O7: the encoder gives the layout, and the decoder and the parser take it apart again. -/
theorem encodedFramesDecodeToTheirPayload : Obligations.EncodedFramesDecodeToTheirPayload := by
  intro id p hid h1 h2
  have hdecode := decodeFrame_frameLayout hid h1 h2
  exact ⟨encodeFrame_eq hid h1 h2, hdecode, fun hfe => parseStatus_of_ok hdecode hfe hid⟩

/-! ## The builder -/

/-- Settles O9: the builder's checks in order, and the round trip of the frame of opcode and parameters. -/
theorem builtPacketsDecodeToOpcodeAndParameters : Obligations.BuiltPacketsDecodeToOpcodeAndParameters := by
  intro p id opc params hmax hop
  refine ⟨fun hunknown => build_badOpcode (opcodeOf_none.mpr hunknown), ?_⟩
  rintro op rfl
  have hopcode := opcodeOf_opcodeByte hop op
  refine ⟨fun hff => ?_, build_paramCount hopcode, fun hid hlo hhi => ?_⟩
  · rw [hff]
    exact build_idRange hopcode
  · have hparams : params.length ≤ 253 := hhi.trans (pcount_le hmax op)
    have hpayload : (p.opcodeByte op :: params).length ≤ 254 := Nat.succ_le_succ hparams
    exact ⟨build_eq hopcode hid hlo hhi hparams, decodeFrame_frameLayout hid (Nat.succ_pos _) hpayload⟩

/-! ## The fault flags -/

/-- The search for the highest flag, written out from bit 6 down (rule R160). -/
theorem highestFlag_eq (e : Byte) : highestFlag e =
    if e.getLsbD 6 then some 6
    else if e.getLsbD 5 then some 5
    else if e.getLsbD 4 then some 4
    else if e.getLsbD 3 then some 3
    else if e.getLsbD 2 then some 2
    else if e.getLsbD 1 then some 1
    else if e.getLsbD 0 then some 0
    else none := by
  simp only [highestFlag, List.find?_cons, List.find?_nil, ← Bool.cond_eq_ite]
  rfl

/-- Settles O12: the flags are tried from bit 6 down on both sides, and at each one the codes agree. -/
theorem highestFlagDecidesTheFault : Obligations.HighestFlagDecidesTheFault := by
  intro e
  rw [statusCode, highestFlag_eq]
  split_ifs <;> rfl

end Sys2Proof.Machine
end

