-- ==== Sys2Proof/Proofs/FramerCommands.lean ====
section
/-! PROOF. Sys2Proof/Proofs/FramerCommands.lean: the last cycles of the framer's commands ENC (rule R141), DEC (rule R148) and
PST (rules R162, R163). -/

namespace Sys2Proof.Machine

/-! ## Commands that build a frame -/

/-- The last cycle of a local command whose frame cannot be built (rule R263). -/
theorem State.localCycle_buildAct_error {s : State} {frame : Except ResultCode (List Byte)} {e : ResultCode}
    (h : s.atLocalEnd) (hf : frame = .error e) : s.localCycle (State.buildAct frame) = .next (s.finish e) := by
  rw [State.localCycle_last _ h, hf]
  rfl

/-- The last cycle of a local command that builds the frame `f`: TXB, TXN and CSUM (rules R141, R157). -/
theorem State.localCycle_buildAct_ok {s : State} {frame : Except ResultCode (List Byte)} {f : List Byte}
    (h : s.atLocalEnd) (hf : frame = .ok f) :
    ∃ t, s.localCycle (State.buildAct frame) = .next t ∧ storesAt s t 0x400 f ∧
      t = { s.finish .ok with
        res := { s.res with txn := BitVec.ofNat 16 f.length, csum := f.getLastD 0 }
        mem := t.mem, csu := t.csu } := by
  refine ⟨(s.loadFrame f).finish .ok, ?_, storesAt_loadFrame s f, rfl⟩
  rw [State.localCycle_last _ h, hf]
  rfl

/-- Settles O14: each clause is one outcome of the encoder on PB's first PN entries; where PN is past 254, the entries that the
operand leaves out do not matter. -/
theorem encEndsWithTheFrame : Obligations.EncEndsWithTheFrame := by
  refine ⟨fun _ _ => rfl, fun s h => ?_⟩
  intro n f
  refine ⟨fun hff => ?_, fun hid hlong => ?_, fun hid hn => ?_, fun hid h1 h254 => ?_⟩
  · exact State.localCycle_buildAct_error h (encodeFrame_idRange hff)
  · have hlen : 254 < s.pbOperand.length := by
      rw [s.pbOperand_length]
      omega
    exact State.localCycle_buildAct_error h (encodeFrame_long hid hlen)
  · have hnil : s.pbOperand = [] := by
      rw [← List.length_eq_zero_iff, s.pbOperand_length]
      omega
    exact State.localCycle_buildAct_error h (by rw [hnil, encodeFrame_nil hid])
  · have hframe : encodeFrame s.regs.id s.pbOperand = .ok f := by
      rw [State.pbOperand_eq (by omega)]
      exact encodeFrame_eq hid (by rwa [s.bytes_length]) (by rwa [s.bytes_length])
    have hlen : f.length = n + 5 := by rw [frameLayout_length, s.bytes_length]
    rw [← hlen]
    exact State.localCycle_buildAct_ok h hframe

/-! ## The received frame -/

/-- A sequence too long for any length byte fails at the header or at the length, and the rest is not looked at
(rules R142, R217). -/
theorem decodeCounted_long {n : Nat} (hn : 259 < n) (f : List Byte) : decodeCounted n f =
    if f.getD 0 0 ≠ 0xFF ∨ f.getD 1 0 ≠ 0xFF then .error .badHeader else .error .badLength := by
  have hbyte := (f.getD 3 0).isLt
  rcases decodeCounted_cases n f with ⟨hshort, -⟩ | ⟨-, hbad, hd⟩ | ⟨-, h0, h1, -, hd⟩ | ⟨-, -, -, hl, -⟩
  · omega
  · rw [hd, if_pos hbad]
  · rw [hd, if_neg (not_badHeader h0 h1)]
  · omega

/-- Keeping the first 259 bytes of a received sequence changes no decode (rule R217). -/
theorem decodeCounted_take (f : List Byte) : decodeCounted f.length (f.take 259) = decodeFrame f := by
  rw [decodeFrame]
  by_cases hlen : f.length ≤ 259
  · rw [List.take_of_length_le hlen]
  · have hget : ∀ k < 259, (f.take 259).getD k 0 = f.getD k 0 := fun k hk => by
      rw [List.getD_eq_getElem?_getD, List.getElem?_take_of_lt hk, List.getD_eq_getElem?_getD]
    rw [decodeCounted_long (by omega), decodeCounted_long (by omega), hget 0 (by omega), hget 1 (by omega)]

/-- DEC, PST and the status parse decode `RXB[0..n-1]` whole, though 259 of its bytes are kept (rules R97, R217). -/
theorem State.decodeCounted_rxFrame (s : State) (n : Nat) :
    decodeCounted n (s.rxFrame n) = decodeFrame (s.bytes 0x600 n) := by
  rw [State.rxFrame_eq, ← decodeCounted_take, s.bytes_length]

/-- A decoded payload fits QB. -/
theorem State.decodeFrame_payload_length {s : State} {n : Nat} {id : Byte} {p : List Byte}
    (h : decodeFrame (s.bytes 0x600 n) = .ok (id, p)) : p.length ≤ 256 := by
  rw [← s.decodeCounted_rxFrame] at h
  rw [decodeCounted_payload h, State.rxFrame, List.length_drop, List.length_dropLast, s.bytes_length, Config.frameMax]
  omega

/-! ## DEC -/

/-- A malformed packet makes QB UNSPECIFIED (rules R147, R148). -/
theorem State.decAct_of_error {s : State} {e : ResultCode}
    (hd : decodeFrame (s.bytes 0x600 s.rxn.toNat) = .error e) :
    s.decAct = (s.setCsu (csuAfterDecode s.rxn.toNat (s.rxFrame s.rxn.toNat) s.csu)).forgetQb.finish e := by
  rw [State.decAct, s.decodeCounted_rxFrame, hd]

/-- A frame's id and payload go to RID, QN and QB (rule R148). -/
theorem State.decAct_of_ok {s : State} {id : Byte} {p : List Byte}
    (hd : decodeFrame (s.bytes 0x600 s.rxn.toNat) = .ok (id, p)) :
    s.decAct = (((s.setCsu (csuAfterDecode s.rxn.toNat (s.rxFrame s.rxn.toNat) s.csu)).setRes
      { s.res with rid := id }).putQb p).finish .ok := by
  rw [State.decAct, s.decodeCounted_rxFrame, hd]
  rfl

/-- Settles O15: each outcome of the decode writes QB, and RID and QN for a payload, and ends the command. -/
theorem decEndsWithThePayload : Obligations.DecEndsWithThePayload := by
  refine ⟨fun _ _ => rfl, fun s h => ?_⟩
  intro f
  refine ⟨fun e hd => ?_, fun id p hd => ?_⟩
  · exact ⟨_, (State.localCycle_last _ h).trans (congrArg _ (State.decAct_of_error hd)), holdsQb_forgetQb s, rfl⟩
  · exact ⟨_, (State.localCycle_last _ h).trans (congrArg _ (State.decAct_of_ok hd)),
      holdsQb_putQb (State.decodeFrame_payload_length hd), rfl⟩

/-! ## PST -/

/-- PST ends with the reply that the status parse of `RXB[0..RXN-1]` gives (rule R162). -/
theorem State.pstAct_eq {s : State} {r : Reply} (hr : parseStatus s.rxn.toNat (s.rxFrame s.rxn.toNat) = r) :
    s.pstAct =
      State.endWithReply r (s.setCsu (csuAfterDecode s.rxn.toNat (s.rxFrame s.rxn.toNat) s.csu)) := by
  rw [State.pstAct, hr]

/-- PST's last cycle after a malformed packet, bad reply ids included (rules R158, R162). -/
theorem exec_pst_malformed {s : State} {e : ResultCode} (h : s.atLocalEnd)
    (hr : parseStatus s.rxn.toNat (s.rxFrame s.rxn.toNat) = .malformed e) :
    ∃ t, exec .pst s = .next t ∧ holdsQb s t [] ∧ t = { s.finish e with mem := t.mem, csu := t.csu } :=
  ⟨_, (State.localCycle_last _ h).trans (congrArg _ (State.pstAct_eq hr)), holdsQb_forgetQb s, rfl⟩

/-- PST's last cycle after a status: the outputs are the same for `OK` and for a device fault (rules R162, R163). -/
theorem exec_pst_status {s : State} {st : Status} (h : s.atLocalEnd)
    (hr : parseStatus s.rxn.toNat (s.rxFrame s.rxn.toNat) = .status st) :
    ∃ t, exec .pst s = .next t ∧ holdsQb s t st.params ∧
      t = { s.finish (statusCode st.err) with
        res := { s.res with rid := st.id, rerr := st.err, qn := BitVec.ofNat 8 st.params.length }
        mem := t.mem, csu := t.csu } :=
  ⟨_, (State.localCycle_last _ h).trans (congrArg _ (State.pstAct_eq hr)),
    holdsQb_putQb ((parse_payload_length hr).trans (by decide)), rfl⟩

/-- Settles O16: the outcome of the decode and its id decide which reply PST ends with. -/
theorem pstEndsWithTheStatus : Obligations.PstEndsWithTheStatus := by
  refine ⟨fun _ _ => rfl, fun s h => ?_⟩
  intro f
  have hframe : decodeCounted s.rxn.toNat (s.rxFrame s.rxn.toNat) = decodeFrame f := s.decodeCounted_rxFrame _
  refine ⟨fun e hd => ?_, fun p hd => ?_, fun id p hd hfe => ?_⟩
  · exact exec_pst_malformed h (parseStatus_of_error (hframe.trans hd))
  · exact exec_pst_malformed h (parseStatus_of_broadcast (hframe.trans hd))
  · rw [← List.length_tail]
    exact exec_pst_status h (parseStatus_of_ok (hframe.trans hd) hfe (decodeFrame_ok_id hd))

end Sys2Proof.Machine
end

