-- ==== Sys2Proof/Proofs/OpenClose.lean ====
section
/-! PROOF. Sys2Proof/Proofs/OpenClose.lean: OPEN and CLOSE (rules R194, R195), from what each does on an open and on a closed
channel. -/

namespace Sys2Proof.Machine

/-! ## What the two commands do -/

/-- OPEN acquires a closed channel: STAT.OPEN is set, and `u_baud` is driven with the pulse (rule R194). -/
theorem State.openAct_of_closed {s : State} (h : s.stat.opened = false) :
    s.openAct =
      ((s.setPins { s.pins with opened := some s.regs.baud }).setStat { s.stat with opened := true }).finish .ok := by
  rw [State.openAct, if_neg (by simp [h])]

/-- OPEN on an open channel does nothing, and applies no new BAUD (rule R194). -/
theorem State.openAct_of_opened {s : State} (h : s.stat.opened = true) : s.openAct = s.finish .ok := if_pos h

/-- CLOSE releases an open channel: STAT.OPEN is cleared, with the pulse (rule R195). -/
theorem State.closeAct_of_opened {s : State} (h : s.stat.opened = true) :
    s.closeAct = ((s.setPins { s.pins with closed := true }).setStat { s.stat with opened := false }).finish .ok :=
  if_pos h

/-- CLOSE on a closed channel does nothing (rule R195). -/
theorem State.closeAct_of_closed {s : State} (h : s.stat.opened = false) : s.closeAct = s.finish .ok := by
  rw [State.closeAct, if_neg (by simp [h])]

/-! ## The last cycle -/

/-- OPEN's last cycle; the count of its cycles starts again (rules R31, R194). -/
theorem exec_openCh_last {s : State} (h : s.atLocalEnd) :
    exec .openCh s = .next (s.setSeq { s.seq with dly := 0 }).openAct :=
  State.localCycle_last State.openAct h

/-- CLOSE's last cycle; the count of its cycles starts again (rules R31, R195). -/
theorem exec_closeCh_last {s : State} (h : s.atLocalEnd) :
    exec .closeCh s = .next (s.setSeq { s.seq with dly := 0 }).closeAct :=
  State.localCycle_last State.closeAct h

/-- Settles O19: the channel's state before the last cycle picks the branch; what is written to the count of the cycles is
what the command's end writes there, too. -/
theorem openAndCloseSwitchTheChannel : Obligations.OpenAndCloseSwitchTheChannel := by
  refine ⟨fun _ _ => ⟨rfl, rfl⟩, fun s h => ?_⟩
  refine ⟨fun hclosed => ?_, fun hopened => ?_, fun hopened => ?_, fun hclosed => ?_⟩
  · exact (exec_openCh_last h).trans (congrArg _ (State.openAct_of_closed hclosed))
  · exact (exec_openCh_last h).trans (congrArg _ (State.openAct_of_opened hopened))
  · exact (exec_closeCh_last h).trans (congrArg _ (State.closeAct_of_opened hopened))
  · exact (exec_closeCh_last h).trans (congrArg _ (State.closeAct_of_closed hclosed))

end Sys2Proof.Machine
end

/-! PROOF. What is kept of a received sequence that is too long for a frame (rules R142, R217). -/

namespace Sys2Proof.Machine

/-- A sequence longer than the longest frame fails at its header or at its length, before the checksum (rules R142, R217). -/
theorem decodeFrame_long {f : List Byte} (hlong : 259 < f.length) :
    decodeFrame f = .error .badHeader ∨ decodeFrame f = .error .badLength := by
  rw [decodeFrame, decodeCounted_long hlong]
  split
  · exact .inl rfl
  · exact .inr rfl

/-- Settles O11: the bytes that are dropped change no decode, and the status parse reads nothing but the decode. -/
theorem truncationLosesNothing : Obligations.TruncationLosesNothing := by
  intro f
  exact ⟨decodeCounted_take f, decodeCounted_congr (decodeCounted_take f), decodeFrame_long⟩

end Sys2Proof.Machine

/-! PROOF. The decoder accepts nothing but frames (rules R91, R142 to R146). -/

namespace Sys2Proof.Machine

/-- What the five steps of a successful decode say of a sequence in the shape header, id, length, payload, checksum. -/
theorem decodeFrame_shape_ok {a b i l c id : Byte} {p q : List Byte}
    (h : decodeFrame (a :: b :: i :: l :: (q ++ [c])) = .ok (id, p)) :
    a = 0xFF ∧ b = 0xFF ∧ i = id ∧ q = p ∧ id ≠ 0xFF ∧ l.toNat = q.length + 1 ∧
      c = ~~~ (BitVec.ofNat 8 (byteSum (i :: l :: q))) := by
  have hshape : a :: b :: i :: l :: (q ++ [c]) = (a :: b :: i :: l :: q) ++ [c] := rfl
  have hlast : (a :: b :: i :: l :: (q ++ [c])).getLastD 0 = c := by rw [hshape, List.getLastD_concat]
  have hinit : (a :: b :: i :: l :: (q ++ [c])).dropLast = a :: b :: i :: l :: q := by
    rw [hshape, List.dropLast_concat]
  rw [decodeFrame_eq, hlast, hinit] at h
  split_ifs at h with _ hheader hlength hid hsum
  cases h
  have ⟨ha, hb⟩ := not_or.mp hheader
  exact ⟨not_not.mp ha, not_not.mp hb, rfl, rfl, hid, by simpa using hlength, not_not.mp hsum⟩

/-- Settles O8: the five steps fix every byte of the sequence but id and payload, and the length byte bounds the payload. -/
theorem decodeAcceptsOnlyFrames : Obligations.DecodeAcceptsOnlyFrames := by
  intro f id p h
  have h6 : 6 ≤ f.length := by
    by_contra hshort
    rw [decodeFrame_eq, if_pos (by omega)] at h
    cases h
  obtain ⟨a, b, i, l, q, c, rfl, -, hq⟩ := frame_shape h6
  obtain ⟨rfl, rfl, rfl, rfl, hid, hl, rfl⟩ := decodeFrame_shape_ok h
  have hlt := l.isLt
  have hlen : l = BitVec.ofNat 8 (q.length + 1) := by
    rw [← hl, BitVec.ofNat_toNat, BitVec.setWidth_eq]
  refine ⟨?_, hid, hq, by omega⟩
  rw [byteSum_cons, byteSum_cons, hl, ← Nat.add_assoc, hlen]
  rfl

end Sys2Proof.Machine

/-! PROOF. The decoder of instruction units (rules R95, R96, R100, R101) and of host-operation words (rule R105). -/

namespace Sys2Proof.Machine

/-! ## Units of one and of two bytes -/

/-- A unit of the command byte alone is the command of rule R96. -/
theorem decode_single_of_some {p : Params} {c : Byte} {i : Instr} (h : commandOf c = some i) : decode p [c] = .ok i := by
  by_cases hi : i = .bld
  · simp only [decode, h, hi, List.head?_nil, if_true]
  · simp only [decode, h, if_neg hi]

theorem decode_of_none {p : Params} {c : Byte} (rest : List Byte) (h : commandOf c = none) :
    decode p (c :: rest) = .error (.illegalCommand c) := by
  simp only [decode, h]

/-- BLD's code is 0x04 and no other (rule R96). -/
theorem commandOf_eq_bld : ∀ c : Byte, commandOf c = some .bld → c = 0x04 := by decide +kernel

/-- The codes of rule R96 are 0x01 to 0x0C. -/
theorem commandOf_isSome_iff : ∀ c : Byte, (commandOf c).isSome = true ↔ 0x01 ≤ c.toNat ∧ c.toNat ≤ 0x0C := by
  decide +kernel

/-- Only BLD looks at the byte of OPC. -/
theorem decode_pair_of_ne {p : Params} {c : Byte} (o : Byte) (hc : c ≠ 0x04) : decode p [c, o] = decode p [c] := by
  cases h : commandOf c with
  | none => rw [decode_of_none _ h, decode_of_none _ h]
  | some i =>
    have hi : i ≠ .bld := fun hb => hc (commandOf_eq_bld c (hb ▸ h))
    simp only [decode, h, if_neg hi]

/-- BLD's unit is the row of the opcode that OPC holds (log entry 1). -/
theorem decode_bld_of_some {p : Params} {o : Byte} {op : Opcode} (h : p.opcodeOf o = some op) :
    decode p [0x04, o] = .ok (instrOfOpcode op) := by
  have hc : commandOf 0x04 = some .bld := rfl
  simp only [decode, hc, List.head?_cons, h, if_true]

/-- Where OPC holds no opcode, BLD's unit is BLD itself (log entry 1). -/
theorem decode_bld_of_none {p : Params} {o : Byte} (h : p.opcodeOf o = none) : decode p [0x04, o] = .ok .bld := by
  have hc : commandOf 0x04 = some .bld := rfl
  simp only [decode, hc, List.head?_cons, h, if_true]

theorem decode_single_ok_iff (p : Params) (c : Byte) :
    (∃ i, decode p [c] = .ok i) ↔ 0x01 ≤ c.toNat ∧ c.toNat ≤ 0x0C := by
  rw [← commandOf_isSome_iff]
  cases h : commandOf c with
  | none => simp [decode_of_none _ h]
  | some i => simp [decode_single_of_some h]

theorem decode_pair_ok_iff (p : Params) (c o : Byte) :
    (∃ i, decode p [c, o] = .ok i) ↔ 0x01 ≤ c.toNat ∧ c.toNat ≤ 0x0C := by
  by_cases hc : c = 0x04
  · subst hc
    have hok : ∃ i, decode p [0x04, o] = .ok i := by
      cases h : p.opcodeOf o with
      | none => exact ⟨_, decode_bld_of_none h⟩
      | some op => exact ⟨_, decode_bld_of_some h⟩
    exact iff_of_true hok (by decide)
  · rw [decode_pair_of_ne o hc, decode_single_ok_iff]

/-- Settles O2: the codes are those of `commandOf`, and behind a code other than BLD's the second byte is not read. -/
theorem commandCodesOfTheTable : Obligations.CommandCodesOfTheTable := by
  refine ⟨decode_single_ok_iff, decode_pair_ok_iff, fun p c o => decode_pair_of_ne o, fun p => ?_⟩
  exact ⟨rfl, rfl, rfl, rfl, rfl, rfl, rfl, rfl, rfl, rfl, rfl, rfl,
    fun o => ⟨rfl, rfl, rfl, rfl, rfl, rfl, rfl, rfl, rfl, rfl, rfl⟩⟩

/-! ## The opcode rows -/

/-- With distinct opcode bytes BLD's unit with an opcode's byte is that opcode's row. -/
theorem decode_opcodeByte {p : Params} (hp : p.OpcodesOk) (op : Opcode) :
    decode p [0x04, p.opcodeByte op] = .ok (instrOfOpcode op) := by
  exact decode_bld_of_some (opcodeOf_opcodeByte hp op)

/-- The unit of an opcode row is BLD's code and the opcode's byte (rule R101; log entry 1). -/
theorem encode_of_opcode {i : Instr} {op : Opcode} (p : Params) (h : i.opcode? = some op) :
    i = instrOfOpcode op ∧ encode p i = [0x04, p.opcodeByte op] := by
  cases i <;> cases h <;> exact ⟨rfl, rfl⟩

/-- A command's unit is its code alone, and decodes to it (rule R96). -/
theorem decode_encode_of_command {i : Instr} (p : Params) (h : i.opcode? = none) : decode p (encode p i) = .ok i := by
  cases i with
  | insPing | insRead | insWrite | insRegWrite | insAction | insReset | insSyncWrite => cases h
  | chk | enc | dec | bld | send | rdd | wrd | ping | scan | pst | openCh | closeCh => rfl

/-- Settles O1: a command's unit is its code, a row's unit is BLD's code with the byte of its opcode. -/
theorem unitsDecodeToTheirInstruction : Obligations.UnitsDecodeToTheirInstruction := by
  intro p i hwf
  cases ho : i.opcode? with
  | none => exact decode_encode_of_command p ho
  | some op =>
    have hp : p.OpcodesOk := hwf.resolve_left (by simp [ho])
    obtain ⟨hi, hunit⟩ := encode_of_opcode p ho
    rw [hunit, hi]
    exact decode_opcodeByte hp op

/-- Settles O3: with distinct opcode bytes each byte finds its own opcode, and the other bytes find none. -/
theorem opcodesOfTheTable : Obligations.OpcodesOfTheTable := by
  intro p hp
  refine ⟨fun op => ⟨opcodeOf_opcodeByte hp op, decode_opcodeByte hp op⟩, fun b => opcodeOf_none,
    fun b hb => decode_bld_of_none (opcodeOf_none.mpr hb), ?_⟩
  exact ⟨rfl, rfl, rfl, rfl, rfl, rfl, rfl, rfl, rfl, rfl, rfl, rfl, rfl, rfl⟩

/-! ## Host-operation words -/

/-- A byte put behind a word (rule R7). -/
theorem toNat_append_byte {w : Nat} (x : BitVec w) (b : Byte) : (x ++ b).toNat = x.toNat * 2 ^ 8 + b.toNat := by
  rw [BitVec.toNat_append, ← Nat.shiftLeft_add_eq_or_of_lt b.isLt, Nat.shiftLeft_eq]

theorem encodeHostOp_wr_toNat (a : Addr) (d : Byte) :
    (encodeHostOp (.wr a d)).toNat = 2 ^ 31 + a.toNat * 2 ^ 16 + d.toNat := by
  have hhead : (1#1 ++ 0#3 ++ a).toNat = 2 ^ 15 + a.toNat := by
    rw [BitVec.toNat_append, ← Nat.shiftLeft_add_eq_or_of_lt a.isLt]
    rfl
  rw [encodeHostOp, toNat_append_byte, toNat_append_byte, hhead, BitVec.toNat_ofNat]
  omega

theorem encodeHostOp_rd_toNat (a : Addr) : (encodeHostOp (.rd a)).toNat = a.toNat * 2 ^ 16 := by
  have hhead : (0#1 ++ 0#3 ++ a).toNat = a.toNat := by
    rw [BitVec.toNat_append, ← Nat.shiftLeft_add_eq_or_of_lt a.isLt]
    simp
  rw [encodeHostOp, toNat_append_byte, toNat_append_byte, hhead, BitVec.toNat_ofNat]
  omega

/-- The fields of a word of rule R105 as numbers. -/
theorem hostWord_fields (w : BitVec 32) :
    (w.extractLsb' 28 3 = 0 ↔ w.toNat / 2 ^ 28 % 2 ^ 3 = 0) ∧ (w.extractLsb' 8 8 = 0 ↔ w.toNat / 2 ^ 8 % 2 ^ 8 = 0) ∧
    (w.extractLsb' 0 8 = 0 ↔ w.toNat % 2 ^ 8 = 0) ∧ (w.getLsbD 31 = true ↔ 2 ^ 31 ≤ w.toNat) ∧
    (w.extractLsb' 16 12).toNat = w.toNat / 2 ^ 16 % 2 ^ 12 ∧ (w.extractLsb' 0 8).toNat = w.toNat % 2 ^ 8 := by
  have hlt := w.isLt
  have field (k n : Nat) : (w.extractLsb' k n).toNat = w.toNat / 2 ^ k % 2 ^ n := by
    rw [BitVec.extractLsb'_toNat, Nat.shiftRight_eq_div_pow]
  have zero (k n : Nat) : w.extractLsb' k n = 0 ↔ w.toNat / 2 ^ k % 2 ^ n = 0 := by
    rw [← field, ← BitVec.toNat_inj]
    rfl
  refine ⟨zero 28 3, zero 8 8, ?_, ?_, field 16 12, ?_⟩
  · simpa using zero 0 8
  · rw [BitVec.getLsbD, Nat.testBit_eq_decide_div_mod_eq, decide_eq_true_eq]
    omega
  · simp

/-- What the decoder of host words answers, in the order of its checks (rule R105). -/
theorem decodeHostOp_cases (w : BitVec 32) :
    (¬ hostWordWf w ∧ ∃ e, decodeHostOp w = .error e) ∨
    (hostWordWf w ∧ w.getLsbD 31 = true ∧ decodeHostOp w = .ok (.wr (w.extractLsb' 16 12) (w.extractLsb' 0 8))) ∨
    (hostWordWf w ∧ w.getLsbD 31 = false ∧ decodeHostOp w = .ok (.rd (w.extractLsb' 16 12))) := by
  unfold decodeHostOp
  by_cases hres : w.extractLsb' 28 3 ≠ 0 ∨ w.extractLsb' 8 8 ≠ 0
  · left
    exact ⟨fun ⟨h1, h2, _⟩ => hres.elim (· h1) (· h2), _, if_pos hres⟩
  · rw [if_neg hres]
    obtain ⟨hhi, hmid⟩ := not_or.mp hres
    cases hw : w.getLsbD 31 with
    | true => exact .inr (.inl ⟨⟨not_not.mp hhi, not_not.mp hmid, fun h => by rw [hw] at h; cases h⟩, rfl, rfl⟩)
    | false =>
      by_cases hdata : w.extractLsb' 0 8 = 0
      · exact .inr (.inr ⟨⟨not_not.mp hhi, not_not.mp hmid, fun _ => hdata⟩, rfl, if_neg (not_not.mpr hdata)⟩)
      · exact .inl ⟨fun ⟨_, _, h⟩ => hdata (h hw), .readWithData, if_pos hdata⟩

/-- A word that decodes is the encoding of its operation. -/
theorem encodeHostOp_of_decodeHostOp {w : BitVec 32} {o : HostOp} (h : decodeHostOp w = .ok o) : encodeHostOp o = w := by
  obtain ⟨hhi, hmid, hlow, hkind, haddr, hdata⟩ := hostWord_fields w
  have hlt := w.isLt
  apply BitVec.eq_of_toNat_eq
  rcases decodeHostOp_cases w with ⟨-, e, he⟩ | ⟨⟨h1, h2, -⟩, hw, hd⟩ | ⟨⟨h1, h2, h3⟩, hw, hd⟩
  · rw [h] at he
    cases he
  · rw [h] at hd
    cases hd
    have hge := hkind.mp hw
    have hz := hhi.mp h1
    have hm := hmid.mp h2
    rw [encodeHostOp_wr_toNat, haddr, hdata]
    omega
  · rw [h] at hd
    cases hd
    have hge := mt hkind.mpr (Bool.eq_false_iff.mp hw)
    have hz := hhi.mp h1
    have hm := hmid.mp h2
    have hl := hlow.mp (h3 hw)
    rw [encodeHostOp_rd_toNat, haddr]
    omega

/-- The encoding of an operation decodes to it: its zero fields are zero, and the other fields are its own. -/
theorem decodeHostOp_encodeHostOp (o : HostOp) : decodeHostOp (encodeHostOp o) = .ok o := by
  obtain ⟨hhi, hmid, hlow, hkind, haddr, hdata⟩ := hostWord_fields (encodeHostOp o)
  cases o with
  | wr a d =>
    have ha := a.isLt
    have hd := d.isLt
    rw [encodeHostOp_wr_toNat] at hhi hmid hkind haddr hdata
    have hres := not_or.mpr ⟨not_not.mpr (hhi.mpr (by omega)), not_not.mpr (hmid.mpr (by omega))⟩
    rw [decodeHostOp, if_neg hres, if_pos (hkind.mpr (by omega)),
      BitVec.eq_of_toNat_eq (haddr.trans (by omega) : _ = a.toNat),
      BitVec.eq_of_toNat_eq (hdata.trans (by omega) : _ = d.toNat)]
  | rd a =>
    have ha := a.isLt
    rw [encodeHostOp_rd_toNat] at hhi hmid hlow hkind haddr
    have hres := not_or.mpr ⟨not_not.mpr (hhi.mpr (by omega)), not_not.mpr (hmid.mpr (by omega))⟩
    rw [decodeHostOp, if_neg hres, if_neg (mt hkind.mp (by omega)), if_neg (not_not.mpr (hlow.mpr (by omega))),
      BitVec.eq_of_toNat_eq (haddr.trans (by omega) : _ = a.toNat)]

/-- Settles O4: the fields of a word determine it as a number, and the decoder checks exactly the fields that are zero. -/
theorem hostWordsRoundTrip : Obligations.HostWordsRoundTrip := by
  refine ⟨encodeHostOp_wr_toNat, encodeHostOp_rd_toNat, decodeHostOp_encodeHostOp,
    fun w o => encodeHostOp_of_decodeHostOp, fun w => ?_⟩
  rcases decodeHostOp_cases w with ⟨hbad, e, he⟩ | ⟨hwf, -, hd⟩ | ⟨hwf, -, hd⟩
  · exact iff_of_false (fun ⟨o, ho⟩ => by rw [he] at ho; cases ho) hbad
  · exact iff_of_true ⟨_, hd⟩ hwf
  · exact iff_of_true ⟨_, hd⟩ hwf

end Sys2Proof.Machine

/-! PROOF. What one cycle of a transaction can do (steps (c) to (e) of 44_transactions.md), as one case for each way through
`State.exchangeCycle`. -/

namespace Sys2Proof.Machine

/-! ## The parts of a cycle -/

/-- A cycle of a step before its last: only the count moves on. -/
def State.wait (s : State) : State := s.setSeq { s.seq with dly := s.seq.dly + 1 }

/-- The last cycle of a step acts on a count that starts again. -/
def State.ready (s : State) : State := s.setSeq { s.seq with dly := 0 }

/-- `b`, the FIFO's oldest byte, is popped and kept at index I, and the sequencer goes on with `q` (rules R213, R218). -/
def State.takeByte (s : State) (b : Byte) (q : Seq) : State :=
  { s with
    mem := (s.keepByte b).mem
    line := { s.line with fifo := s.line.fifo.tail }
    pins := { s.pins with rxPop := true }
    seq := q }

theorem State.takeByte_eq (s : State) (b : Byte) (q : Seq) : (s.uartPop.keepByte b).setSeq q = s.takeByte b q := by
  by_cases h : s.seq.i.toNat < Config.frameMax
  · have hpop : s.uartPop.keepByte b = s.uartPop.setMem (Mem.write s.mem (Config.rxbBase + s.seq.i.toNat) b) := if_pos h
    rw [hpop, State.takeByte, State.keepByte, if_pos h]
    rfl
  · have hpop : s.uartPop.keepByte b = s.uartPop := if_neg h
    rw [hpop, State.takeByte, State.keepByte, if_neg h]
    rfl

/-- A byte counted below 259 stands in RXB after the pop, and nothing else is stored. -/
theorem State.storesAt_takeByte (s : State) (b : Byte) (q : Seq) :
    storesAt s (s.takeByte b q) (0x600 + s.seq.i.toNat) (if s.seq.i.toNat < 259 then [b] else []) :=
  storesAt_keepByte s b

theorem Keeps.takeByte {s : State} (b : Byte) {q : Seq} (hcmd : q.cmd = s.seq.cmd) (hmode : q.rxmode = s.seq.rxmode) :
    Keeps s (s.takeByte b q) := by
  have hk := Keeps.keepByte s b
  exact ⟨rfl, rfl, hcmd, hmode, rfl, rfl, rfl, rfl, rfl, rfl, hk.low, hk.wf⟩

/-- The end of reception with no byte is no reply (rule R215). -/
theorem State.endReception_zero (s : State) (fin : Reply → State → State) :
    s.endReception 0 fin = fin .noReply (s.setRxn 0) := if_pos rfl

/-- The end of reception with `n` bytes leads to the parse (rules R213, R218). -/
theorem State.endReception_pos {s : State} {n : Half} (fin : Reply → State → State) (h : n ≠ 0) :
    s.endReception n fin = (s.setRxn n).enter .parse := if_neg h

/-- The state after the pop of one byte of REASSEMBLE (rule R218). -/
def State.reasmTaken (s : State) (b : Byte) : State := s.takeByte b { s.seq with i := satSucc s.seq.i }

/-! ## One cycle -/

/-- The cycles of a transaction once its frame is launched, with the state each of them leads to. -/
inductive Exchange (fin : Reply → State → State) (s : State) : State → Prop
  | flushWait (hp : s.phase = .flush) (hd : s.seq.dly + 1 < s.params.flushCycles) : Exchange fin s s.wait
  | flush (hp : s.phase = .flush) (hd : s.params.flushCycles ≤ s.seq.dly + 1) : Exchange fin s s.flushAct
  | txEmpty (hp : s.phase = .tx) (hi : s.res.txn.toNat ≤ s.seq.i.toNat) : Exchange fin s s.startReception
  | txStall (hp : s.phase = .tx) (hi : s.seq.i.toNat < s.res.txn.toNat) (hr : s.now.txReady = false) :
      Exchange fin s (s.uartSend (s.peek (0x400 + s.seq.i.toNat) 0))
  | txNext (hp : s.phase = .tx) (hi : s.seq.i.toNat + 1 < s.res.txn.toNat) (hr : s.now.txReady = true) :
      Exchange fin s ((s.uartSend (s.peek (0x400 + s.seq.i.toNat) 0)).setSeq { s.seq with i := s.seq.i + 1 })
  | txLast (hp : s.phase = .tx) (hi : s.seq.i.toNat + 1 = s.res.txn.toNat) (hr : s.now.txReady = true) :
      Exchange fin s (s.uartSend (s.peek (0x400 + s.seq.i.toNat) 0)).startReception
  | settleWait (hp : s.phase = .settle) (ht : s.seq.t.toNat + 1 < s.regs.settle.toNat) :
      Exchange fin s (s.setSeq { s.seq with t := s.seq.t + 1 })
  | settleLast (hp : s.phase = .settle) (ht : s.regs.settle.toNat ≤ s.seq.t.toNat + 1) :
      Exchange fin s ((s.setSeq { s.seq with t := s.seq.t + 1 }).enter .snap)
  | sample (hp : s.phase = .snap) (hs : s.seq.snap = none) (hf : s.line.fifo ≠ []) :
      Exchange fin s (s.setSeq { s.seq with snap := some s.uartCount, i := 0, dly := 0 })
  | sampleNone (hp : s.phase = .snap) (hs : s.seq.snap = none) (hf : s.line.fifo = []) :
      Exchange fin s (fin .noReply (s.setRxn 0))
  | popWait (n : Half) (hp : s.phase = .snap) (hs : s.seq.snap = some n) (hd : s.seq.dly + 1 < s.params.popCycles) :
      Exchange fin s s.wait
  | popNext (n : Half) (b : Byte) (rest : List Byte) (hp : s.phase = .snap) (hs : s.seq.snap = some n)
      (hd : s.params.popCycles ≤ s.seq.dly + 1) (hf : s.line.fifo = b :: rest) (hi : s.seq.i.toNat + 1 < n.toNat) :
      Exchange fin s (s.takeByte b { s.seq with i := s.seq.i + 1, dly := 0 })
  | popLast (n : Half) (b : Byte) (rest : List Byte) (hp : s.phase = .snap) (hs : s.seq.snap = some n)
      (hd : s.params.popCycles ≤ s.seq.dly + 1) (hf : s.line.fifo = b :: rest) (hi : n.toNat ≤ s.seq.i.toNat + 1) :
      Exchange fin s ((s.takeByte b { s.seq with i := s.seq.i + 1, dly := 0 }).endReception n fin)
  | timeout (hp : s.phase = .reasm) (ht : s.regs.timeout.toNat ≤ s.seq.t.toNat) :
      Exchange fin s (s.endReception s.seq.i fin)
  | reasmWait (hp : s.phase = .reasm) (ht : s.seq.t.toNat < s.regs.timeout.toNat) (hf : s.line.fifo = []) :
      Exchange fin s (s.setSeq { s.seq with t := s.seq.t + 1 })
  | reasmMore (b : Byte) (rest : List Byte) (hp : s.phase = .reasm) (ht : s.seq.t.toNat < s.regs.timeout.toNat)
      (hf : s.line.fifo = b :: rest) (hc : (s.reasmTaken b).complete (satSucc s.seq.i).toNat = false) :
      Exchange fin s (s.takeByte b { s.seq with i := satSucc s.seq.i, t := s.seq.t + 1 })
  | reasmWhole (b : Byte) (rest : List Byte) (hp : s.phase = .reasm) (ht : s.seq.t.toNat < s.regs.timeout.toNat)
      (hf : s.line.fifo = b :: rest) (hc : (s.reasmTaken b).complete (satSucc s.seq.i).toNat = true) :
      Exchange fin s ((s.reasmTaken b).endReception (satSucc s.seq.i) fin)
  | parseWait (hp : s.phase = .parse) (hd : s.seq.dly + 1 < s.params.parseCycles) : Exchange fin s s.wait
  | parse (hp : s.phase = .parse) (hd : s.params.parseCycles ≤ s.seq.dly + 1) : Exchange fin s (State.parseAct fin s.ready)

variable {fin : Reply → State → State} {s : State}

theorem State.uartCount_eq_zero_iff (s : State) : s.uartCount = 0 ↔ s.line.fifo = [] := by
  rw [State.uartCount, ← BitVec.toNat_inj, BitVec.toNat_ofNat, ← List.length_eq_zero_iff]
  change _ = 0 ↔ _
  omega

theorem Exchange.of_txCycle (hp : s.phase = .tx) : Exchange fin s s.txCycle := by
  unfold State.txCycle
  split
  · exact .txEmpty hp (by assumption)
  · rename_i hi
    cases hr : s.now.txReady with
    | false => exact .txStall hp (by omega) hr
    | true =>
      dsimp only
      rw [if_pos rfl]
      split
      · exact .txNext hp (by assumption) hr
      · exact .txLast hp (by omega) hr

theorem Exchange.of_settleCycle (hp : s.phase = .settle) : Exchange fin s s.settleCycle := by
  unfold State.settleCycle
  dsimp only
  split
  · exact .settleWait hp (by assumption)
  · exact .settleLast hp (by omega)

theorem Exchange.of_reasmCycle (hp : s.phase = .reasm) : Exchange fin s (s.reasmCycle fin) := by
  unfold State.reasmCycle
  split
  · exact .timeout hp (by assumption)
  · split
    · exact .reasmWait hp (by omega) (by assumption)
    · rename_i b rest hf
      simp only [State.takeByte_eq]
      cases hc : (s.reasmTaken b).complete (satSucc s.seq.i).toNat with
      | true => exact (if_pos hc) ▸ .reasmWhole b rest hp (by omega) hf hc
      | false =>
        rw [if_neg (by rw [State.reasmTaken] at hc; simp [hc])]
        exact .reasmMore b rest hp (by omega) hf hc

theorem Exchange.of_snapCycle {t : State} (hp : s.phase = .snap) (h : s.snapCycle fin = .next t) : Exchange fin s t := by
  unfold State.snapCycle at h
  split at h
  · rename_i hs
    split at h <;> cases h
    · rename_i hc
      rw [State.endReception_zero]
      exact .sampleNone hp hs ((s.uartCount_eq_zero_iff).mp hc)
    · rename_i hc
      exact .sample hp hs (mt (s.uartCount_eq_zero_iff).mpr hc)
  · rename_i n hs
    split at h
    · cases h
      exact .popWait n hp hs (by assumption)
    · split at h
      · cases h
      · rename_i b rest hf
        simp only [State.takeByte_eq] at h
        split at h <;> cases h
        · exact .popNext n b rest hp hs (by omega) hf (by assumption)
        · exact .popLast n b rest hp hs (by omega) hf (by omega)

/-- A cycle of a transaction is one of the cases of `Exchange`. -/
theorem Exchange.of_exchangeCycle {t : State} (h : s.exchangeCycle fin = .next t) : Exchange fin s t := by
  unfold State.exchangeCycle at h
  split at h
  · rename_i hp
    cases h
    rcases s.afterDelay_cases s.params.flushCycles State.flushAct with ⟨hd, e⟩ | ⟨hd, e⟩ <;> rw [e]
    · exact .flushWait hp hd
    · exact .flush hp hd
  · cases h
    exact .of_txCycle (by assumption)
  · cases h
    exact .of_settleCycle (by assumption)
  · exact .of_snapCycle (by assumption) h
  · cases h
    exact .of_reasmCycle (by assumption)
  · rename_i hp
    cases h
    rcases s.afterDelay_cases s.params.parseCycles (State.parseAct fin) with ⟨hd, e⟩ | ⟨hd, e⟩ <;> rw [e]
    · exact .parseWait hp hd
    · exact .parse hp hd
  · cases h
  · cases h
  · cases h

/-- The cases of `Exchange` are the transaction's cycles, so that each of them names the next state. -/
theorem Exchange.eq {t : State} (h : Exchange fin s t) : s.exchangeCycle fin = .next t := by
  cases h with
  | flushWait hp hd => simp only [State.exchangeCycle, hp, State.afterDelay_wait _ hd]; rfl
  | flush hp hd => simp only [State.exchangeCycle, hp, State.afterDelay_last _ hd]; rfl
  | txEmpty hp hi => simp only [State.exchangeCycle, hp, State.txCycle, if_pos hi]
  | txStall hp hi hr =>
    simp only [State.exchangeCycle, hp, State.txCycle, if_neg (Nat.not_le.mpr hi), hr]
    rfl
  | txNext hp hi hr =>
    simp only [State.exchangeCycle, hp, State.txCycle, if_neg (Nat.not_le.mpr (Nat.lt_of_succ_lt hi)), hr, if_pos hi]
    rfl
  | txLast hp hi hr =>
    simp only [State.exchangeCycle, hp, State.txCycle, if_neg (Nat.not_le.mpr (Nat.lt_of_succ_le hi.le)), hr,
      if_neg (Nat.not_lt.mpr hi.ge)]
    rfl
  | settleWait hp ht => simp only [State.exchangeCycle, hp, State.settleCycle, if_pos ht]
  | settleLast hp ht => simp only [State.exchangeCycle, hp, State.settleCycle, if_neg (Nat.not_lt.mpr ht)]
  | sample hp hs hf =>
    simp only [State.exchangeCycle, hp, State.snapCycle, hs, if_neg (mt s.uartCount_eq_zero_iff.mp hf)]
  | sampleNone hp hs hf =>
    simp only [State.exchangeCycle, hp, State.snapCycle, hs, if_pos (s.uartCount_eq_zero_iff.mpr hf), State.endReception_zero]
  | popWait n hp hs hd => simp only [State.exchangeCycle, hp, State.snapCycle, hs, if_pos hd]; rw [← hs]; rfl
  | popNext n b rest hp hs hd hf hi =>
    simp only [State.exchangeCycle, hp, State.snapCycle, hs, if_neg (Nat.not_lt.mpr hd), hf, State.takeByte_eq, if_pos hi]
  | popLast n b rest hp hs hd hf hi =>
    simp only [State.exchangeCycle, hp, State.snapCycle, hs, if_neg (Nat.not_lt.mpr hd), hf, State.takeByte_eq,
      if_neg (Nat.not_lt.mpr hi)]
  | timeout hp ht => simp only [State.exchangeCycle, hp, State.reasmCycle, if_pos ht]
  | reasmWait hp ht hf => simp only [State.exchangeCycle, hp, State.reasmCycle, if_neg (Nat.not_le.mpr ht), hf]
  | reasmMore b rest hp ht hf hc =>
    simp only [State.exchangeCycle, hp, State.reasmCycle, if_neg (Nat.not_le.mpr ht), hf, State.takeByte_eq]
    rw [State.reasmTaken] at hc
    rw [hc]
    rfl
  | reasmWhole b rest hp ht hf hc =>
    simp only [State.exchangeCycle, hp, State.reasmCycle, if_neg (Nat.not_le.mpr ht), hf, State.takeByte_eq]
    rw [State.reasmTaken] at hc
    rw [hc]
    rfl
  | parseWait hp hd => simp only [State.exchangeCycle, hp, State.afterDelay_wait _ hd]; rfl
  | parse hp hd => simp only [State.exchangeCycle, hp, State.afterDelay_last _ hd]; rfl

end Sys2Proof.Machine

/-! PROOF. What one cycle of an instruction can do: the last cycles of the local instructions and of the build step as functions of
the instruction, and one case for each way through `exec`. -/

namespace Sys2Proof.Machine

/-! ## The last cycles -/

/-- What an opcode's row does in its last cycle (rules R107, R150 to R157). -/
def State.packetAct (op : Opcode) (s : State) : State :=
  State.buildAct (build s.params s.regs.id (s.params.opcodeByte op) s.pbOperand) s

/-- What a local instruction does in its last cycle; the channel commands have no such cycle (tied to `exec` by
`exec_local`). -/
def localAct : Instr → State → State
  | .chk => State.chkAct
  | .enc => fun s => State.buildAct (encodeFrame s.regs.id s.pbOperand) s
  | .dec => State.decAct
  | .bld => fun s => State.buildAct (build s.params s.regs.id s.regs.opc s.pbOperand) s
  | .pst => State.pstAct
  | .openCh => State.openAct
  | .closeCh => State.closeAct
  | .insPing => State.packetAct .ping
  | .insRead => State.packetAct .read
  | .insWrite => State.packetAct .write
  | .insRegWrite => State.packetAct .regWrite
  | .insAction => State.packetAct .action
  | .insReset => State.packetAct .reset
  | .insSyncWrite => State.packetAct .syncWrite
  | .send | .rdd | .wrd | .ping | .scan => id

/-- The packet that a channel command builds in LOCAL; SCAN builds none there (rule R98). -/
def launchFrame : Instr → State → Except ResultCode (List Byte)
  | .rdd => State.rddFrame
  | .wrd => State.wrdFrame
  | .ping => fun s => s.pingFrame s.regs.id
  | .send | .scan | .chk | .enc | .dec | .bld | .pst | .openCh | .closeCh => State.sendFrame
  | .insPing | .insRead | .insWrite | .insRegWrite | .insAction | .insReset | .insSyncWrite => State.sendFrame

/-- The last cycle of the build step of SEND, RDD, WRD and PING (rules R199, R230). -/
def State.launchOrEnd (frame : Except ResultCode (List Byte)) (s : State) : State :=
  State.launch frame (fun e t => t.finish e) s

/-- The last cycle of a channel command's first step (tied to `exec` by `exec_build`). -/
def buildEnd (i : Instr) (s : State) : State :=
  if i = .scan then s.scanStart else s.launchOrEnd (launchFrame i s)

/-- PING clears PINGOK from its first cycle on (rule R233; log entry 13). -/
def buildEntry (i : Instr) (s : State) : State := if i = .ping then s.setPingok false else s

/-! ## The instructions -/

/-- A local instruction runs in LOCAL and acts in its last cycle (rules R31, R262). -/
theorem exec_local {i : Instr} (hi : i.isLocal = true) (s : State) : exec i s = s.localCycle (localAct i) := by
  cases i with
  | send | rdd | wrd | ping | scan => cases hi
  | chk | enc | dec | bld | pst | openCh | closeCh => rfl
  | insPing | insRead | insWrite | insRegWrite | insAction | insReset | insSyncWrite => rfl

/-- A channel command starts with a step of `buildCycles` cycles in LOCAL (rules R230, R234, R299). -/
theorem exec_build {i : Instr} {s : State} (hi : i ∈ channelInstrs) (hp : s.phase = .localCmd) :
    exec i s = .next ((buildEntry i s).afterDelay s.params.buildCycles (buildEnd i)) := by
  simp only [channelInstrs, List.mem_cons, List.not_mem_nil, or_false] at hi
  rcases hi with rfl | rfl | rfl | rfl | rfl
  · simp only [exec, execSend, State.transactCycle, hp]; rfl
  · simp only [exec, execRdd, State.transactCycle, hp]; rfl
  · simp only [exec, execWrd, State.transactCycle, hp]; rfl
  · simp only [exec, execPing, State.transactCycle, State.setPingok_phase, hp]; rfl
  · simp only [exec, execScan, hp]; rfl

/-- SCAN_STEP is a step of `scanStepCycles` cycles (rules R234, R299; log entry 9). -/
theorem exec_scanStep {s : State} (hp : s.phase = .scanStep) :
    exec .scan s = .next (s.afterDelay s.params.scanStepCycles State.scanLaunch) := by
  simp only [exec, execScan, hp]

/-- A launched frame's cycle leads where `Exchange` says. -/
theorem exec_of_exchange {i : Instr} {s t : State} (hi : i ∈ channelInstrs) (hp : s.phase.exchange = true)
    (h : Exchange (endOf i) s t) : exec i s = .next t := by
  rw [exec_exchange hi hp]
  exact h.eq

theorem isLocal_or_channel (i : Instr) : (i.isLocal = true ∧ i ∉ channelInstrs) ∨ (i.isLocal = false ∧ i ∈ channelInstrs) := by
  cases i <;> decide

/-- Outside its own phases a channel command faults (log entry 14). -/
theorem exec_channel_phase {i : Instr} {s t : State} (hi : i ∈ channelInstrs) (h : exec i s = .next t) :
    s.phase = .localCmd ∨ (i = .scan ∧ s.phase = .scanStep) ∨ s.phase.exchange = true := by
  simp only [channelInstrs, List.mem_cons, List.not_mem_nil, or_false] at hi
  cases hp : s.phase with
  | localCmd => exact .inl rfl
  | flush | tx | settle | snap | reasm | parse => exact .inr (.inr rfl)
  | idle =>
    rcases hi with rfl | rfl | rfl | rfl | rfl <;>
      simp [exec, execSend, execRdd, execWrd, execPing, execScan, State.transactCycle, State.exchangeCycle, hp] at h
  | scanStep =>
    rcases hi with rfl | rfl | rfl | rfl | rfl
    · simp [exec, execSend, State.transactCycle, State.exchangeCycle, hp] at h
    · simp [exec, execRdd, State.transactCycle, State.exchangeCycle, hp] at h
    · simp [exec, execWrd, State.transactCycle, State.exchangeCycle, hp] at h
    · simp [exec, execPing, State.transactCycle, State.exchangeCycle, hp] at h
    · exact .inr (.inl ⟨rfl, rfl⟩)

/-- The cycles of an instruction, with the state each of them leads to. -/
inductive Cycle (i : Instr) (s : State) : State → Prop
  | localWait (hi : i.isLocal = true) (hp : s.phase = .localCmd) (hd : s.seq.dly + 1 < s.params.latLocal) :
      Cycle i s s.wait
  | localEnd (hi : i.isLocal = true) (h : s.atLocalEnd) : Cycle i s (localAct i s.ready)
  | buildWait (hi : i ∈ channelInstrs) (hp : s.phase = .localCmd) (hd : s.seq.dly + 1 < s.params.buildCycles) :
      Cycle i s (buildEntry i s).wait
  | buildEnd (hi : i ∈ channelInstrs) (h : s.atBuildEnd) : Cycle i s (buildEnd i (buildEntry i s).ready)
  | scanWait (hi : i = .scan) (hp : s.phase = .scanStep) (hd : s.seq.dly + 1 < s.params.scanStepCycles) :
      Cycle i s s.wait
  | scanLaunch (hi : i = .scan) (hp : s.phase = .scanStep) (hd : s.params.scanStepCycles ≤ s.seq.dly + 1) :
      Cycle i s s.ready.scanLaunch
  | exchange (t : State) (hi : i ∈ channelInstrs) (hp : s.phase.exchange = true) (h : Exchange (endOf i) s t) : Cycle i s t

@[simp] theorem buildEntry_seq (i : Instr) (s : State) : (buildEntry i s).seq = s.seq := by
  unfold buildEntry; split <;> rfl

@[simp] theorem buildEntry_phase (i : Instr) (s : State) : (buildEntry i s).phase = s.phase := by
  unfold buildEntry; split <;> rfl

/-- A cycle of an instruction is one of the cases of `Cycle`. -/
theorem Cycle.of_exec {i : Instr} {s t : State} (h : exec i s = .next t) : Cycle i s t := by
  rcases isLocal_or_channel i with ⟨hi, -⟩ | ⟨-, hi⟩
  · rw [exec_local hi] at h
    obtain ⟨hp, rfl⟩ := State.localCycle_cases h
    rcases s.afterDelay_cases s.params.latLocal (localAct i) with ⟨hd, e⟩ | ⟨hd, e⟩ <;> rw [e]
    · exact .localWait hi hp hd
    · exact .localEnd hi ⟨hp, hd⟩
  · rcases exec_channel_phase hi h with hp | ⟨rfl, hp⟩ | hp
    · rw [exec_build hi hp] at h
      cases h
      rcases (buildEntry i s).afterDelay_cases s.params.buildCycles (Machine.buildEnd i) with ⟨hd, e⟩ | ⟨hd, e⟩ <;> rw [e]
      · exact .buildWait hi hp (by simpa using hd)
      · exact .buildEnd hi ⟨hp, by simpa using hd⟩
    · rw [exec_scanStep hp] at h
      cases h
      rcases s.afterDelay_cases s.params.scanStepCycles State.scanLaunch with ⟨hd, e⟩ | ⟨hd, e⟩ <;> rw [e]
      · exact .scanWait rfl hp hd
      · exact .scanLaunch rfl hp hd
    · rw [exec_exchange hi hp] at h
      exact .exchange t hi hp (.of_exchangeCycle h)

/-- The cases of `Cycle` are the instruction's cycles, so that each of them names the next state. -/
theorem Cycle.eq {i : Instr} {s t : State} (h : Cycle i s t) : exec i s = .next t := by
  cases h with
  | localWait hi hp hd => rw [exec_local hi, State.localCycle_eq _ hp, State.afterDelay_wait _ hd]; rfl
  | localEnd hi h => rw [exec_local hi, State.localCycle_last _ h]; rfl
  | buildWait hi hp hd => rw [exec_build hi hp, State.afterDelay_wait _ (by simpa using hd)]; rfl
  | buildEnd hi h => rw [exec_build hi h.1, State.afterDelay_last _ (by simpa using h.2)]; rfl
  | scanWait hi hp hd => rw [hi, exec_scanStep hp, State.afterDelay_wait _ hd]; rfl
  | scanLaunch hi hp hd => rw [hi, exec_scanStep hp, State.afterDelay_last _ hd]; rfl
  | exchange _ hi hp h => exact exec_of_exchange hi hp h

/-- Settles O60: the waiting cases of `Cycle` and of `Exchange`. -/
theorem waitingCyclesChangeOnlyTheirCount : Obligations.WaitingCyclesChangeOnlyTheirCount := by
  intro i s p d wait
  have hentry : i ≠ .ping → buildEntry i s = s := fun h => if_neg h
  refine ⟨fun hi hp hd => (Cycle.localWait hi hp hd).eq, fun hp hd => ?_, fun hi hne hp hd => ?_, fun hi hp hd => ?_,
    fun hi hp hd => (Cycle.scanWait hi hp hd).eq, fun hi hp hd => ?_, fun hi n hp hs hd => ?_, fun hi hp hd => ?_⟩
  · exact (State.localCycle_eq _ hp).trans (congrArg _ (State.afterDelay_wait _ hd))
  · rw [(Cycle.buildWait hi hp hd).eq, hentry hne]
    rfl
  · subst hi
    exact (Cycle.buildWait (by decide) hp hd).eq
  · exact exec_of_exchange hi (by rw [hp]; rfl) (.flushWait hp hd)
  · exact exec_of_exchange hi (by rw [hp]; rfl) (.popWait n hp hs hd)
  · exact exec_of_exchange hi (by rw [hp]; rfl) (.parseWait hp hd)

end Sys2Proof.Machine

/-! PROOF. What no instruction touches (rules R21, R81), and who writes the handshake, the status bits and the UART side
(rules R27 to R31, R191 to R193, R262). -/

namespace Sys2Proof.Machine

/-! ## What no instruction touches -/

theorem Keeps.ready (s : State) : Keeps s s.ready := Keeps.setSeq rfl rfl

theorem Keeps.wait (s : State) : Keeps s s.wait := Keeps.setSeq rfl rfl

theorem Keeps.buildEntry (i : Instr) (s : State) : Keeps s (buildEntry i s) := by
  unfold Machine.buildEntry
  split
  · exact Keeps.setPingok s _
  · exact Keeps.refl s

theorem Keeps.exchange {i : Instr} {s t : State} (h : Exchange (Machine.endOf i) s t) : Keeps s t :=
  Keeps.exchangeCycle (fun _ u hr => Keeps.endOf hr u) h.eq

theorem Keeps.chkAct (s : State) : Keeps s s.chkAct := by
  unfold State.chkAct
  split
  · exact Keeps.finish s _
  · exact Keeps.after (Keeps.finish _ _) ((Keeps.setCsu s _).trans (Keeps.setRes _ _))

theorem Keeps.decAct (s : State) : Keeps s s.decAct := by
  cases hd : decodeFrame (s.bytes 0x600 s.rxn.toNat) with
  | error e =>
    rw [State.decAct_of_error hd]
    exact ((Keeps.setCsu s _).trans (Keeps.forgetQb _)).trans (Keeps.finish _ _)
  | ok r =>
    rw [State.decAct_of_ok hd]
    exact (((Keeps.setCsu s _).trans (Keeps.setRes _ _)).trans
      (Keeps.putQb (State.decodeFrame_payload_length hd))).trans (Keeps.finish _ _)

theorem Keeps.openAct (s : State) : Keeps s s.openAct := by
  cases h : s.stat.opened with
  | true => rw [State.openAct_of_opened h]; exact Keeps.finish s _
  | false =>
    rw [State.openAct_of_closed h]
    exact Keeps.after (Keeps.finish _ _) (Keeps.after (Keeps.setStat rfl) (Keeps.setPins s _))

theorem Keeps.closeAct (s : State) : Keeps s s.closeAct := by
  cases h : s.stat.opened with
  | true =>
    rw [State.closeAct_of_opened h]
    exact Keeps.after (Keeps.finish _ _) (Keeps.after (Keeps.setStat rfl) (Keeps.setPins s _))
  | false => rw [State.closeAct_of_closed h]; exact Keeps.finish s _

theorem Keeps.packetAct (op : Opcode) (s : State) : Keeps s (s.packetAct op) :=
  Keeps.buildAct (fun _ h => (build_length h).2) s

theorem Keeps.localAct {i : Instr} (hi : i.isLocal = true) (s : State) : Keeps s (localAct i s) := by
  cases i with
  | send | rdd | wrd | ping | scan => cases hi
  | chk => exact Keeps.chkAct s
  | enc => exact Keeps.buildAct (fun _ h => (encodeFrame_length h).2) s
  | dec => exact Keeps.decAct s
  | bld => exact Keeps.buildAct (fun _ h => (build_length h).2) s
  | pst => exact (Keeps.setCsu s _).trans (Keeps.endWithReply (Reply.short_parse s _) _)
  | openCh => exact Keeps.openAct s
  | closeCh => exact Keeps.closeAct s
  | insPing | insRead | insWrite | insRegWrite | insAction | insReset | insSyncWrite => exact Keeps.packetAct _ s

/-- A channel command's packet is a frame of 6 to 259 bytes. -/
theorem launchFrame_length {i : Instr} {s : State} {f : List Byte} (h : launchFrame i s = .ok f) :
    6 ≤ f.length ∧ f.length ≤ 259 := by
  cases i <;>
    simp only [launchFrame, State.sendFrame, State.rddFrame, State.wrdFrame, State.pingFrame] at h <;>
    exact build_length h

theorem Keeps.buildEnd (i : Instr) (s : State) : Keeps s (buildEnd i s) := by
  unfold Machine.buildEnd
  split
  · exact Keeps.scanStart s
  · exact Keeps.launch (fun _ h => (launchFrame_length h).2) (fun e u => Keeps.finish u e) s

/-- No instruction writes CTRL, an operand register, the latched code and mode, OVR or PB (rules R21, R28, R81). -/
theorem Keeps.exec {i : Instr} {s t : State} (h : exec i s = .next t) : Keeps s t := by
  cases Cycle.of_exec h with
  | localWait | scanWait => exact Keeps.wait s
  | localEnd hi _ => exact (Keeps.ready s).trans (Keeps.localAct hi _)
  | buildWait => exact (Keeps.buildEntry i s).trans (Keeps.wait _)
  | buildEnd => exact ((Keeps.buildEntry i s).trans (Keeps.ready _)).trans (Keeps.buildEnd i _)
  | scanLaunch => exact (Keeps.ready s).trans (Keeps.scanLaunch _)
  | exchange _ _ _ h => exact Keeps.exchange h

theorem Keeps.illegalCycle {s t : State} (h : s.illegalCycle = .next t) : Keeps s t := by
  obtain ⟨-, rfl⟩ := State.localCycle_cases h
  exact Keeps.afterDelay fun u => Keeps.finish u _

theorem Keeps.runCommand {unit : List Byte} {s t : State} (h : runCommand unit s = .next t) : Keeps s t := by
  rcases runCommand_cases unit s with ⟨i, -, e⟩ | ⟨-, -, e⟩
  · exact Keeps.exec (e ▸ h)
  · exact Keeps.illegalCycle (e ▸ h)

/-- Settles O46: an instruction's cycle keeps all of them, and while BUSY = 1 the host reaches none of them but CTRL. -/
theorem operandsAreFrozenWhileBusy : Obligations.OperandsAreFrozenWhileBusy := by
  refine ⟨fun i s t h => ?_, fun s t hr hb h => ?_⟩
  · have hk := Keeps.exec h
    exact ⟨hk.regs, hk.ctrl, hk.cmd, hk.rxmode, hk.low⟩
  · rw [step_busy hr hb] at h
    obtain ⟨c, d, o, r, hf⟩ := State.front_busy hb
    cases hc : runCommand s.fetch s.front with
    | next u =>
      rw [hc] at h
      cases h
      have hk := Keeps.runCommand hc
      rw [hf] at hk
      exact ⟨hk.regs, hk.cmd, hk.rxmode, hk.low⟩
    | fault r => rw [hc] at h; cases h
    | refused r => rw [hc] at h; cases h

/-! ## The handshake, the status bits and the UART side -/

/-- What `i` may do outside the flush, the write and the pops: it keeps RC, BUSY and DONE or ends the command, it leaves the status
bits of others and the UART side as they are. -/
structure Quiet (i : Instr) (s t : State) : Prop where
  hand    : (t.rc = s.rc ∧ t.stat.busy = s.stat.busy ∧ t.stat.done = s.stat.done) ∨
    (t.stat.busy = false ∧ t.stat.done = true ∧ t.phase = .idle)
  pingok  : i ≠ .ping → i ≠ .scan → t.stat.pingok = s.stat.pingok
  opened  : i ≠ .openCh → i ≠ .closeCh → t.stat.opened = s.stat.opened
  line    : t.line = s.line
  tx      : t.pins.tx = s.pins.tx
  rxPop   : t.pins.rxPop = s.pins.rxPop
  rxFlush : t.pins.rxFlush = s.pins.rxFlush

/-- The end of a command, after results were written. -/
theorem Quiet.finish (i : Instr) (s : State) (e : ResultCode) : Quiet i s (s.finish e) :=
  ⟨.inr ⟨rfl, rfl, rfl⟩, fun _ _ => rfl, fun _ _ => rfl, rfl, rfl, rfl, rfl⟩

/-- The next step of a command. -/
theorem Quiet.enter (i : Instr) (s : State) (p : Phase) : Quiet i s (s.enter p) :=
  ⟨.inl ⟨rfl, rfl, rfl⟩, fun _ _ => rfl, fun _ _ => rfl, rfl, rfl, rfl, rfl⟩

theorem Quiet.setSeq (i : Instr) (s : State) (q : Seq) : Quiet i s (s.setSeq q) :=
  ⟨.inl ⟨rfl, rfl, rfl⟩, fun _ _ => rfl, fun _ _ => rfl, rfl, rfl, rfl, rfl⟩

/-- `u`, which differs from `s` in nothing that `Quiet` speaks of, may stand for it. -/
theorem Quiet.of_eq {i : Instr} {s u t : State} (h : Quiet i u t) (hrc : u.rc = s.rc) (hstat : u.stat = s.stat)
    (hline : u.line = s.line) (hpins : u.pins = s.pins) : Quiet i s t := by
  obtain ⟨h1, h2, h3, h4, h5, h6, h7⟩ := h
  rw [hrc, hstat] at h1
  rw [hstat] at h2 h3
  rw [hline] at h4
  rw [hpins] at h5 h6 h7
  exact ⟨h1, h2, h3, h4, h5, h6, h7⟩

theorem Quiet.buildAct (i : Instr) (frame : Except ResultCode (List Byte)) (s : State) :
    Quiet i s (State.buildAct frame s) := by
  cases frame with
  | error e => exact Quiet.finish i s e
  | ok f => exact (Quiet.finish i (s.loadFrame f) _).of_eq rfl rfl rfl rfl

theorem Quiet.endWithReply (i : Instr) (r : Reply) (s : State) : Quiet i s (State.endWithReply r s) := by
  cases r with
  | noReply => exact Quiet.finish i s _
  | malformed c => exact (Quiet.finish i s.forgetQb _).of_eq rfl rfl rfl rfl
  | status st => exact (Quiet.finish i (s.putStatus st) _).of_eq rfl rfl rfl rfl

theorem Quiet.launch {i : Instr} {frame : Except ResultCode (List Byte)} {fail : ResultCode → State → State}
    (hf : ∀ e u, Quiet i u (fail e u)) (s : State) : Quiet i s (State.launch frame fail s) := by
  cases frame with
  | error e => exact hf e s
  | ok f =>
    unfold State.launch
    dsimp only
    split
    · exact (Quiet.enter i (s.loadFrame f) .flush).of_eq rfl rfl rfl rfl
    · exact (hf .closed (s.loadFrame f)).of_eq rfl rfl rfl rfl

theorem Quiet.chkAct (i : Instr) (s : State) : Quiet i s s.chkAct := by
  unfold State.chkAct
  split
  · exact Quiet.finish i s _
  · exact (Quiet.finish i _ _).of_eq rfl rfl rfl rfl

theorem Quiet.decAct (i : Instr) (s : State) : Quiet i s s.decAct := by
  unfold State.decAct
  dsimp only
  split
  · exact (Quiet.finish i _ _).of_eq rfl rfl rfl rfl
  · exact (Quiet.finish i _ _).of_eq rfl rfl rfl rfl

/-- OPEN and CLOSE write STAT.OPEN and drive their own strobes. -/
theorem Quiet.openAct (s : State) : Quiet .openCh s s.openAct := by
  unfold State.openAct
  split
  · exact Quiet.finish _ s _
  · exact ⟨.inr ⟨rfl, rfl, rfl⟩, fun _ _ => rfl, fun h => absurd rfl h, rfl, rfl, rfl, rfl⟩

theorem Quiet.closeAct (s : State) : Quiet .closeCh s s.closeAct := by
  unfold State.closeAct
  split
  · exact ⟨.inr ⟨rfl, rfl, rfl⟩, fun _ _ => rfl, fun _ h => absurd rfl h, rfl, rfl, rfl, rfl⟩
  · exact Quiet.finish _ s _

theorem Quiet.localAct {i : Instr} (hi : i.isLocal = true) (s : State) : Quiet i s (localAct i s) := by
  cases i with
  | send | rdd | wrd | ping | scan => cases hi
  | chk => exact Quiet.chkAct _ s
  | enc | bld => exact Quiet.buildAct _ _ s
  | dec => exact Quiet.decAct _ s
  | pst => exact (Quiet.endWithReply _ _ _).of_eq rfl rfl rfl rfl
  | openCh => exact Quiet.openAct s
  | closeCh => exact Quiet.closeAct s
  | insPing | insRead | insWrite | insRegWrite | insAction | insReset | insSyncWrite => exact Quiet.buildAct _ _ s

/-! SCAN and PING write PINGOK. -/

theorem Quiet.scanFinish (s : State) : Quiet .scan s s.scanFinish :=
  ⟨.inr ⟨rfl, rfl, rfl⟩, fun _ h => absurd rfl h, fun _ _ => rfl, rfl, rfl, rfl, rfl⟩

theorem Quiet.scanNext (s : State) : Quiet .scan s s.scanNext := by
  unfold State.scanNext
  split
  · exact (Quiet.enter _ _ .scanStep).of_eq rfl rfl rfl rfl
  · exact Quiet.scanFinish s

theorem Quiet.scanOutputs_next (r : Reply) (s : State) : Quiet .scan s (State.scanOutputs r s).scanNext := by
  cases r with
  | noReply => exact Quiet.scanNext s
  | malformed c => exact (Quiet.scanNext s.forgetQb).of_eq rfl rfl rfl rfl
  | status st => exact (Quiet.scanNext (s.putStatus st)).of_eq rfl rfl rfl rfl

theorem Quiet.scanOutputs_record (r : Reply) (s : State) : Quiet .scan s (State.scanOutputs r s).scanRecord.scanNext := by
  cases r with
  | noReply => exact (Quiet.scanNext s.scanRecord).of_eq rfl rfl rfl rfl
  | malformed c => exact (Quiet.scanNext s.forgetQb.scanRecord).of_eq rfl rfl rfl rfl
  | status st => exact (Quiet.scanNext (s.putStatus st).scanRecord).of_eq rfl rfl rfl rfl

theorem Quiet.scanReply (r : Reply) (s : State) : Quiet .scan s (State.scanReply r s) := by
  unfold State.scanReply
  split
  · exact Quiet.scanOutputs_record r s
  · exact Quiet.scanOutputs_next r s

theorem Quiet.scanStart (s : State) : Quiet .scan s s.scanStart := by
  unfold State.scanStart
  dsimp only
  split_ifs
  · exact Quiet.finish _ s _
  · exact Quiet.finish _ s _
  · exact (Quiet.scanFinish _).of_eq rfl rfl rfl rfl
  · exact (Quiet.enter _ _ .scanStep).of_eq rfl rfl rfl rfl

/-- A step that starts from `s` with PINGOK written is PING's. -/
theorem Quiet.of_setPingok {b : Bool} {s t : State} (h : Quiet .ping (s.setPingok b) t) : Quiet .ping s t :=
  ⟨h.hand, fun hne => absurd rfl hne, h.opened, h.line, h.tx, h.rxPop, h.rxFlush⟩

theorem Quiet.endOf (i : Instr) (r : Reply) (s : State) : Quiet i s (endOf i r s) := by
  cases i with
  | wrd => exact Quiet.finish _ s _
  | ping => exact (Quiet.endWithReply _ _ _).of_setPingok
  | scan => exact Quiet.scanReply r s
  | chk | enc | dec | bld | pst | send | rdd | openCh | closeCh => exact Quiet.endWithReply _ r s
  | insPing | insRead | insWrite | insRegWrite | insAction | insReset | insSyncWrite => exact Quiet.endWithReply _ r s

/-- A step that starts from the entry of the build step is the command's. -/
theorem Quiet.of_buildEntry {i : Instr} {s t : State} (h : Quiet i (buildEntry i s) t) : Quiet i s t := by
  by_cases hi : i = .ping
  · subst hi
    exact Quiet.of_setPingok h
  · rwa [Machine.buildEntry, if_neg hi] at h

theorem Quiet.buildEnd (i : Instr) (s : State) : Quiet i s (buildEnd i s) := by
  unfold Machine.buildEnd
  split
  · rename_i hi
    subst hi
    exact Quiet.scanStart s
  · exact Quiet.launch (fun e u => Quiet.finish i u e) s

theorem Quiet.endReception (i : Instr) (n : Half) (s : State) : Quiet i s (s.endReception n (Machine.endOf i)) := by
  unfold State.endReception
  split
  · exact (Quiet.endOf i .noReply (s.setRxn n)).of_eq rfl rfl rfl rfl
  · exact (Quiet.enter i (s.setRxn n) .parse).of_eq rfl rfl rfl rfl

theorem Quiet.startReception (i : Instr) (s : State) : Quiet i s s.startReception := by
  unfold State.startReception
  dsimp only
  split_ifs
  · exact (Quiet.enter i _ .reasm).of_eq rfl rfl rfl rfl
  · exact (Quiet.enter i _ .snap).of_eq rfl rfl rfl rfl
  · exact (Quiet.enter i _ .settle).of_eq rfl rfl rfl rfl

/-- What a cycle of the exchange does to the UART side, and what it keeps beside it: the cycle is quiet seen from a state that
already has the flush, the byte handed over, or the pop. -/
theorem Exchange.quiet {i : Instr} {s t : State} (h : Exchange (endOf i) s t) :
    ∃ u, Quiet i u t ∧ u.rc = s.rc ∧ u.stat = s.stat ∧
      ((u.line = s.line) ∨
        (s.phase = .flush ∧ u.line = { s.line with fifo := [] }) ∨
        (s.phase = .tx ∧ s.now.txReady = true ∧
          u.line = { s.line with txlog := s.line.txlog ++ [s.peek (0x400 + s.seq.i.toNat) 0] }) ∨
        ((s.phase = .snap ∨ s.phase = .reasm) ∧ u.line = { s.line with fifo := s.line.fifo.tail })) := by
  cases h with
  | flushWait | popWait | parseWait => exact ⟨s, Quiet.setSeq i s _, rfl, rfl, .inl rfl⟩
  | settleWait | sample | reasmWait => exact ⟨s, Quiet.setSeq i s _, rfl, rfl, .inl rfl⟩
  | flush hp =>
    exact ⟨s.uartFlush, (Quiet.enter i (s.uartFlush.setSeq _) .tx).of_eq rfl rfl rfl rfl, rfl, rfl, .inr (.inl ⟨hp, rfl⟩)⟩
  | txEmpty => exact ⟨s, Quiet.startReception i s, rfl, rfl, .inl rfl⟩
  | txStall hp hi hr =>
    refine ⟨s.uartSend _, ⟨.inl ⟨rfl, rfl, rfl⟩, fun _ _ => rfl, fun _ _ => rfl, rfl, rfl, rfl, rfl⟩, rfl, rfl, .inl ?_⟩
    rw [State.uartSend_line, hr]
    rfl
  | txNext hp hi hr =>
    refine ⟨s.uartSend _, Quiet.setSeq i _ _, rfl, rfl, .inr (.inr (.inl ⟨hp, hr, ?_⟩))⟩
    rw [State.uartSend_line, if_pos hr]
  | txLast hp hi hr =>
    refine ⟨s.uartSend _, Quiet.startReception i _, rfl, rfl, .inr (.inr (.inl ⟨hp, hr, ?_⟩))⟩
    rw [State.uartSend_line, if_pos hr]
  | settleLast => exact ⟨s, (Quiet.enter i _ .snap).of_eq rfl rfl rfl rfl, rfl, rfl, .inl rfl⟩
  | sampleNone => exact ⟨s.setRxn 0, Quiet.endOf i _ _, rfl, rfl, .inl rfl⟩
  | popNext n b rest hp =>
    exact ⟨s.takeByte b s.seq, Quiet.setSeq i (s.takeByte b s.seq) _, rfl, rfl, .inr (.inr (.inr ⟨.inl hp, rfl⟩))⟩
  | popLast n b rest hp =>
    exact ⟨s.takeByte b _, Quiet.endReception i n _, rfl, rfl, .inr (.inr (.inr ⟨.inl hp, rfl⟩))⟩
  | timeout => exact ⟨s, Quiet.endReception i _ s, rfl, rfl, .inl rfl⟩
  | reasmMore b rest hp =>
    exact ⟨s.takeByte b s.seq, Quiet.setSeq i (s.takeByte b s.seq) _, rfl, rfl, .inr (.inr (.inr ⟨.inr hp, rfl⟩))⟩
  | reasmWhole b rest hp =>
    exact ⟨s.reasmTaken b, Quiet.endReception i _ _, rfl, rfl, .inr (.inr (.inr ⟨.inr hp, rfl⟩))⟩
  | parse => exact ⟨s, (Quiet.endOf i _ _).of_eq rfl rfl rfl rfl, rfl, rfl, .inl rfl⟩

/-- Every cycle of an instruction outside the exchange is quiet. -/
theorem exec_quiet_or_exchange {i : Instr} {s t : State} (h : exec i s = .next t) :
    Quiet i s t ∨ (i.isLocal = false ∧ Exchange (endOf i) s t) := by
  cases Cycle.of_exec h with
  | localWait | scanWait => exact .inl (Quiet.setSeq i s _)
  | localEnd hi _ => exact .inl ((Quiet.localAct hi s.ready).of_eq rfl rfl rfl rfl)
  | buildWait => exact .inl (Quiet.setSeq i (buildEntry i s) _).of_buildEntry
  | buildEnd =>
    have hq : Quiet i (buildEntry i s) (buildEnd i (buildEntry i s).ready) := (Quiet.buildEnd i _).of_eq rfl rfl rfl rfl
    exact .inl hq.of_buildEntry
  | scanLaunch hi =>
    subst hi
    exact .inl ((Quiet.launch (fun _ u => Quiet.scanNext u) s.ready).of_eq rfl rfl rfl rfl)
  | exchange _ hi _ h =>
    have hlocal : i.isLocal = false := ((isLocal_or_channel i).resolve_left fun hl => hl.2 hi).1
    exact .inr ⟨hlocal, h⟩

/-- Settles O47: the handshake of a quiet cycle, and the exchange writes the UART side beside one. -/
theorem resultIsWrittenOnlyAtTheEnd : Obligations.ResultIsWrittenOnlyAtTheEnd := by
  intro i s t h
  rcases exec_quiet_or_exchange h with hq | ⟨-, hx⟩
  · exact hq.hand
  · obtain ⟨u, hq, hrc, hstat, -⟩ := hx.quiet
    rw [← hrc, ← hstat]
    exact hq.hand

/-- Settles O49. -/
theorem statusBitsHaveTheirOwnWriters : Obligations.StatusBitsHaveTheirOwnWriters := by
  intro i s t h
  have hovr := (Keeps.exec h).ovr
  rcases exec_quiet_or_exchange h with hq | ⟨-, hx⟩
  · exact ⟨hq.pingok, hq.opened, hovr⟩
  · obtain ⟨u, hq, -, hstat, -⟩ := hx.quiet
    rw [← hstat] at hovr ⊢
    exact ⟨hq.pingok, hq.opened, hovr⟩

/-- Settles O48: a quiet cycle leaves the UART side as it is, and the other cycles are the flush, the write and the pops. -/
theorem onlyTheTxPhaseHandsOverBytes : Obligations.OnlyTheTxPhaseHandsOverBytes := by
  intro i s t h
  rcases exec_quiet_or_exchange h with hq | ⟨hlocal, hx⟩
  · exact ⟨.inl (by rw [hq.line]), .inl (by rw [hq.line]), fun _ => ⟨hq.line, hq.tx, hq.rxPop, hq.rxFlush⟩⟩
  · obtain ⟨u, hq, -, -, hline⟩ := hx.quiet
    rw [← hq.line] at hline
    rw [← and_assoc]
    refine ⟨?_, fun hl => by rw [hlocal] at hl; cases hl⟩
    rcases hline with e | ⟨hp, e⟩ | ⟨hp, hr, e⟩ | ⟨hp, e⟩ <;> rw [e]
    · exact ⟨.inl rfl, .inl rfl⟩
    · exact ⟨.inl rfl, .inr (.inl ⟨hp, rfl⟩)⟩
    · exact ⟨.inr ⟨hp, hr, rfl⟩, .inl rfl⟩
    · exact ⟨.inl rfl, .inr (.inr ⟨hp, rfl⟩)⟩

end Sys2Proof.Machine

/-! PROOF. The commands that build a packet: BLD and the opcode rows (rules R149 to R157), and the launch of the channel commands
(rules R98, R199, R230 to R234). -/

namespace Sys2Proof.Machine

/-! ## The packet of PB's first PN entries -/

/-- Where the count fits the opcode, the operand is all of `PB[0..PN-1]`. -/
theorem build_pbOperand {s : State} {op : Opcode} {opc : Byte} (hmax : s.params.MaxOk)
    (hopcode : s.params.opcodeOf opc = some op) (hid : s.regs.id ≠ 0xFF)
    (hlo : (s.params.pcount op).1 ≤ s.regs.pn.toNat) (hhi : s.regs.pn.toNat ≤ (s.params.pcount op).2) :
    build s.params s.regs.id opc s.pbOperand =
      .ok (frameLayout s.regs.id (opc :: s.bytes 0x100 s.regs.pn.toNat)) := by
  have h253 := hhi.trans (pcount_le hmax op)
  rw [State.pbOperand_eq (h253.trans (by decide))]
  exact build_eq hopcode hid (by rwa [s.bytes_length]) (by rwa [s.bytes_length]) (by rwa [s.bytes_length])

/-- A count outside the opcode's range stays outside it where the operand leaves entries out. -/
theorem build_pbOperand_paramCount {s : State} {op : Opcode} {opc : Byte} (hmax : s.params.MaxOk)
    (hopcode : s.params.opcodeOf opc = some op) (hid : s.regs.id ≠ 0xFF)
    (hc : s.regs.pn.toNat < (s.params.pcount op).1 ∨ (s.params.pcount op).2 < s.regs.pn.toNat) :
    build s.params s.regs.id opc s.pbOperand = .error .paramCount := by
  have h253 := pcount_le hmax op
  refine build_paramCount hopcode hid ?_
  rw [s.pbOperand_length]
  omega

theorem build_idRange_of_eq {p : Params} {id opc : Byte} {ps : List Byte} {op : Opcode} (hid : id = 0xFF)
    (h : p.opcodeOf opc = some op) : build p id opc ps = .error .idRange := by
  rw [hid]
  exact build_idRange h

/-- The frame of an opcode byte and `PB[0..PN-1]` has PN + 6 bytes (rule R91). -/
theorem packet_length (s : State) (opc : Byte) :
    (frameLayout s.regs.id (opc :: s.bytes 0x100 s.regs.pn.toNat)).length = s.regs.pn.toNat + 6 := by
  rw [frameLayout_length, List.length_cons, s.bytes_length]

/-- Settles O17: each clause is one outcome of the builder on PB's first PN entries. -/
theorem bldEndsWithThePacket : Obligations.BldEndsWithThePacket := by
  intro s h hmax hop n f
  refine ⟨fun hunknown => ?_, fun op hopc => ?_⟩
  · exact State.localCycle_buildAct_error h (build_badOpcode (opcodeOf_none.mpr hunknown))
  · have hopcode : s.params.opcodeOf s.regs.opc = some op := hopc ▸ opcodeOf_opcodeByte hop op
    refine ⟨fun hff => ?_, fun hid hc => ?_, fun hid hlo hhi => ?_⟩
    · exact State.localCycle_buildAct_error h (build_idRange_of_eq hff hopcode)
    · exact State.localCycle_buildAct_error h (build_pbOperand_paramCount hmax hopcode hid hc)
    · rw [← packet_length s s.regs.opc]
      exact State.localCycle_buildAct_ok h (build_pbOperand hmax hopcode hid hlo hhi)

/-- A row's cycle is that of its opcode's packet (rule R107). -/
theorem exec_instrOfOpcode (op : Opcode) (s : State) : exec (instrOfOpcode op) s = s.buildOpcode op := by
  cases op <;> rfl

/-- Settles O18: a row differs from BLD only in where the opcode byte comes from. -/
theorem opcodeRowsBuildTheirPacket : Obligations.OpcodeRowsBuildTheirPacket := by
  intro s op hmax hop
  have hopcode := opcodeOf_opcodeByte hop op
  rw [exec_instrOfOpcode]
  refine ⟨fun hopc => ?_, fun h => ?_⟩
  · rw [State.buildOpcode, ← hopc]
    rfl
  · intro n f
    refine ⟨fun hff => ?_, fun hid hc => ?_, fun hid hlo hhi => ?_⟩
    · exact State.localCycle_buildAct_error h (build_idRange_of_eq hff hopcode)
    · exact State.localCycle_buildAct_error h (build_pbOperand_paramCount hmax hopcode hid hc)
    · rw [← packet_length s (s.params.opcodeByte op)]
      exact State.localCycle_buildAct_ok h (build_pbOperand hmax hopcode hid hlo hhi)

/-! ## The launch -/

/-- The build step of SEND, RDD and WRD where the packet cannot be built. -/
theorem exec_launch_error {i : Instr} {s : State} {e : ResultCode} (hi : i ∈ channelInstrs) (hping : i ≠ .ping)
    (hscan : i ≠ .scan) (h : s.atBuildEnd) (hf : launchFrame i s.ready = .error e) :
    exec i s = .next (s.finish e) := by
  rw [(Cycle.buildEnd hi h).eq, buildEntry, if_neg hping, buildEnd, if_neg hscan, hf]
  rfl

/-- A built frame stands in TXB; then the channel check decides (rule R199). -/
theorem launchOrEnd_ok (s : State) (f : List Byte) :
    storesAt s (s.launchOrEnd (.ok f)) 0x400 f ∧
    s.launchOrEnd (.ok f) = { (if s.stat.opened then s.enter .flush else s.finish .closed) with
      res := { s.res with txn := BitVec.ofNat 16 f.length, csum := f.getLastD 0 }
      mem := (s.launchOrEnd (.ok f)).mem, csu := (s.launchOrEnd (.ok f)).csu } := by
  have hlaunch : s.launchOrEnd (.ok f) =
      if s.stat.opened then (s.loadFrame f).enter .flush else (s.loadFrame f).finish .closed := rfl
  rw [hlaunch]
  split
  · exact ⟨storesAt_loadFrame s f, rfl⟩
  · exact ⟨storesAt_loadFrame s f, rfl⟩

/-- The build step of SEND, RDD and WRD where the packet is built. -/
theorem exec_launch_ok {i : Instr} {s : State} {f : List Byte} (hi : i ∈ channelInstrs) (hping : i ≠ .ping)
    (hscan : i ≠ .scan) (h : s.atBuildEnd) (hf : launchFrame i s.ready = .ok f) :
    ∃ t, exec i s = .next t ∧ storesAt s t 0x400 f ∧
      t = { (if s.stat.opened then s.enter .flush else s.finish .closed) with
        res := { s.res with txn := BitVec.ofNat 16 f.length, csum := f.getLastD 0 }
        mem := t.mem, csu := t.csu } := by
  obtain ⟨hstore, ht⟩ := launchOrEnd_ok s.ready f
  refine ⟨s.ready.launchOrEnd (.ok f), ?_, hstore, ht⟩
  rw [(Cycle.buildEnd hi h).eq, buildEntry, if_neg hping, buildEnd, if_neg hscan, hf]

/-- Settles O22: the builder's outcomes, then the channel check. -/
theorem sendBuildsThenChecksTheChannel : Obligations.SendBuildsThenChecksTheChannel := by
  intro s h hmax hop n f
  have hfail {e : ResultCode} (hf : build s.params s.regs.id s.regs.opc s.pbOperand = .error e) :
      exec .send s = .next (s.finish e) := exec_launch_error (by decide) (by decide) (by decide) h hf
  refine ⟨fun hunknown => hfail (build_badOpcode (opcodeOf_none.mpr hunknown)), fun op hopc => ?_⟩
  have hopcode : s.params.opcodeOf s.regs.opc = some op := hopc ▸ opcodeOf_opcodeByte hop op
  refine ⟨fun hff => hfail (build_idRange_of_eq hff hopcode),
    fun hid hc => hfail (build_pbOperand_paramCount hmax hopcode hid hc), fun hid hlo hhi => ?_⟩
  rw [← packet_length s s.regs.opc]
  exact exec_launch_ok (by decide) (by decide) (by decide) h (build_pbOperand hmax hopcode hid hlo hhi)

/-! PING, READ and WRITE have fixed opcode bytes (rule R5), so that their packets need no assumption on the others. -/

theorem opcodeOf_ping (p : Params) : p.opcodeOf 0x01 = some .ping := rfl
theorem opcodeOf_read (p : Params) : p.opcodeOf 0x02 = some .read := rfl
theorem opcodeOf_write (p : Params) : p.opcodeOf 0x03 = some .write := rfl

/-- Settles O23: READ takes two parameters, and ADDR and RLEN are two. -/
theorem rddSendsReadOfAddressAndLength : Obligations.RddSendsReadOfAddressAndLength := by
  intro s h f
  refine ⟨fun hff => ?_, fun hid => ?_⟩
  · exact exec_launch_error (by decide) (by decide) (by decide) h (build_idRange_of_eq hff (opcodeOf_read s.params))
  · have hf : build s.params s.regs.id 0x02 [s.regs.addr, s.regs.rlen] = .ok f :=
      build_eq (opcodeOf_read s.params) hid (by simp [Params.pcount]) (by simp [Params.pcount]) (by simp)
    exact exec_launch_ok (by decide) (by decide) (by decide) h hf

/-- Settles O24: ADDR counts as one of WRITE's parameters. -/
theorem wrdSendsWriteOfAddressAndData : Obligations.WrdSendsWriteOfAddressAndData := by
  intro s h hmax n f
  obtain ⟨-, hmax⟩ := hmax
  have hlen := s.pbOperand_length
  have hfail {e : ResultCode} (hf : build s.params s.regs.id 0x03 (s.regs.addr :: s.pbOperand) = .error e) :
      exec .wrd s = .next (s.finish e) := exec_launch_error (by decide) (by decide) (by decide) h hf
  refine ⟨fun hff => hfail (build_idRange_of_eq hff (opcodeOf_write s.params)), fun hid hc => ?_, fun hid h1 h2 => ?_⟩
  · refine hfail (build_paramCount (opcodeOf_write s.params) hid ?_)
    rw [Params.pcount, List.length_cons, hlen]
    dsimp only
    omega
  · have hop : s.pbOperand = s.bytes 0x100 n := State.pbOperand_eq (by omega)
    have hf : build s.params s.regs.id 0x03 (s.regs.addr :: s.pbOperand) = .ok f := by
      rw [hop]
      refine build_eq (opcodeOf_write s.params) hid ?_ ?_ ?_ <;>
        simp only [Params.pcount, List.length_cons, s.bytes_length] <;> omega
    have hflen : f.length = n + 7 := by
      rw [frameLayout_length, List.length_cons, List.length_cons, s.bytes_length]
    rw [← hflen]
    exact exec_launch_ok (by decide) (by decide) (by decide) h hf

/-- The packet of a ping (rules R98, R150). -/
theorem build_ping (p : Params) {id : Byte} (hid : id ≠ 0xFF) : build p id 0x01 [] = .ok (frameLayout id [0x01]) :=
  build_eq (opcodeOf_ping p) hid (by simp [Params.pcount]) (by simp [Params.pcount]) (by simp)

/-- PING's build step acts on the state with PINGOK cleared. -/
theorem exec_ping_build {s : State} (h : s.atBuildEnd) :
    exec .ping s = .next ((s.setPingok false).ready.launchOrEnd (build s.params s.regs.id 0x01 [])) :=
  (Cycle.buildEnd (by decide) h).eq

/-- Settles O25: PINGOK is cleared before the builder and the channel check decide. -/
theorem pingClearsPingokAndSendsPing : Obligations.PingClearsPingokAndSendsPing := by
  intro s h f
  refine ⟨fun hff => ?_, fun hid => ?_⟩
  · rw [exec_ping_build h, build_idRange_of_eq hff (opcodeOf_ping s.params)]
    rfl
  · obtain ⟨hstore, ht⟩ := launchOrEnd_ok (s.setPingok false).ready f
    refine ⟨(s.setPingok false).ready.launchOrEnd (.ok f), ?_, hstore, ht⟩
    rw [exec_ping_build h, build_ping s.params hid]

/-! ## SCAN -/

/-- SCAN's checks are made in the last cycle of its first step. -/
theorem exec_scan_build {s : State} (h : s.atBuildEnd) : exec .scan s = .next s.ready.scanStart :=
  (Cycle.buildEnd (by decide) h).eq

/-- The checks of SCAN in their order (rule R234). -/
theorem State.scanStart_eq (s : State) : s.scanStart =
    if 0xFD < s.regs.scanhi.toNat then s.finish .idRange
    else if s.stat.opened = false then s.finish .closed
    else if s.regs.scanhi.toNat < s.regs.scanlo.toNat then
      (s.setSeq { s.seq with scanM := 0, scanId := s.regs.scanlo }).scanFinish
    else (s.setSeq { s.seq with scanM := 0, scanId := s.regs.scanlo }).enter .scanStep := rfl

/-- What SCAN's end leaves: PB, and the noted entries of SCANLIST (rule R234; log entry 15). -/
theorem State.scanFinish_reads (s : State) :
    (∀ a < 0x200, Mem.read s.scanFinish.mem a = Mem.read s.mem a) ∧
    ∀ k < s.seq.scanM.toNat, Mem.read s.scanFinish.mem (0x300 + k) = Mem.read s.mem (0x300 + k) := by
  refine ⟨(Keeps.scanFinish s).low, fun k hk => ?_⟩
  have hm := s.seq.scanM.isLt
  change Mem.read s.scanMem _ = _
  simp only [State.scanMem, Mem.read_forget, Config.qbBase, Config.txbBase, Config.rxbBase, Config.scanBase,
    Config.byteBufDepth, Config.frameMax]
  rw [if_neg (by omega), if_neg (by omega), if_neg (by omega), if_neg (by omega)]

/-- Settles O26: the checks in their order; an empty range ends as every SCAN does. -/
theorem scanChecksItsRangeThenTheChannel : Obligations.ScanChecksItsRangeThenTheChannel := by
  intro s h
  rw [exec_scan_build h, State.scanStart_eq]
  refine ⟨fun hhi => ?_, fun hhi ho => ?_, fun hhi ho hr => ?_, fun hhi ho hr => ?_⟩
  · rw [if_pos (by exact hhi)]
    rfl
  · rw [if_neg (by exact hhi.not_gt), if_pos (by exact ho)]
    rfl
  · rw [if_neg (by exact hhi.not_gt), if_neg (by simp [State.ready, ho]), if_neg (by exact hr.not_gt)]
    rfl
  · rw [if_neg (by exact hhi.not_gt), if_neg (by simp [State.ready, ho]), if_pos (by exact hr)]
    refine ⟨_, rfl, (State.scanFinish_reads _).1, rfl⟩

/-- Settles O27: on an open channel the ping of any id but 0xFF is launched. -/
theorem scanPingsTheCurrentId : Obligations.ScanPingsTheCurrentId := by
  intro s hp hd ho hid f
  refine ⟨(s.ready.loadFrame f).enter .flush, ?_, storesAt_loadFrame s f, rfl⟩
  have hframe : s.ready.pingFrame s.ready.seq.scanId = .ok f := build_ping s.params hid
  rw [(Cycle.scanLaunch rfl hp hd).eq, State.scanLaunch, hframe, State.launch]
  exact congrArg _ (if_pos ho)

end Sys2Proof.Machine

/-! PROOF. Single cycles of the flush, the write and the reception (rules R191 to R197, R210 to R221). -/

namespace Sys2Proof.Machine

/-! ## Flush and write -/

/-- Settles O28: the flush is the last cycle of phase FLUSH. -/
theorem flushEmptiesTheReceiveFifo : Obligations.FlushEmptiesTheReceiveFifo := by
  intro i s hi hp hd
  exact exec_of_exchange hi (by rw [hp]; rfl) (.flush hp hd)

/-- A byte offered to a UART that is ready is handed over (rule R192). -/
theorem State.uartSend_ready {s : State} (b : Byte) (h : s.now.txReady = true) :
    s.uartSend b = { s with
      pins := { s.pins with tx := some b }
      line := { s.line with txlog := s.line.txlog ++ [b] } } := by
  rw [State.uartSend, if_pos h]

/-- A byte offered to a UART that is not ready stays offered, and nothing else changes (rules R192, R198). -/
theorem State.uartSend_stalled {s : State} (b : Byte) (h : s.now.txReady = false) :
    s.uartSend b = { s with pins := { s.pins with tx := some b } } := by
  rw [State.uartSend, if_neg (by simp [h])]

/-- The phase in which reception begins (rules R210, R212; log entry 11). -/
def State.receptionPhase (s : State) : Phase :=
  if s.seq.rxmode then .reasm else if s.regs.settle = 0 then .snap else .settle

theorem State.startReception_eq (s : State) : s.startReception = { s with
    phase := s.receptionPhase
    seq := { s.seq with t := 0, i := 0, snap := none, dly := 0 } } := by
  unfold State.startReception State.receptionPhase
  split_ifs <;> rfl

/-- Settles O30: the last byte's cycle is the hand-over and the start of reception in one. -/
theorem lastByteStartsReception : Obligations.LastByteStartsReception := by
  intro i s hi hp hlast hr b
  rw [exec_of_exchange hi (by rw [hp]; rfl) (.txLast hp hlast hr), State.startReception_eq, State.uartSend_ready b hr]
  rfl

/-! ## No reply -/

/-- Without a reply SEND, RDD, WRD and PING end alike, PING with PINGOK = 0 (rules R215, R233). -/
theorem endOf_noReply {i : Instr} (hi : i ∈ replyInstrs) (s : State) :
    endOf i .noReply s = s.endsAs i false .noReply := by
  simp only [replyInstrs, List.mem_cons, List.not_mem_nil, or_false] at hi
  rcases hi with rfl | rfl | rfl | rfl <;> rfl

theorem channel_of_reply {i : Instr} (hi : i ∈ replyInstrs) : i ∈ channelInstrs := by
  revert hi
  cases i <;> decide

/-! ## SNAPSHOT -/

/-- Settles O33: the sample finds a byte or it does not. -/
theorem snapshotSamplesTheCountOnce : Obligations.SnapshotSamplesTheCountOnce := by
  intro i s hp hs
  have hx : s.phase.exchange = true := by rw [hp]; rfl
  refine ⟨fun hi hf => exec_of_exchange hi hx (.sample hp hs hf), fun hi hf => ?_⟩
  rw [exec_of_exchange (channel_of_reply hi) hx (.sampleNone hp hs hf), endOf_noReply hi]

/-- Settles O34: a pop that is not the last goes on, and the last one ends the reception. -/
theorem snapshotPopsTheOldestByte : Obligations.SnapshotPopsTheOldestByte := by
  intro i s n b rest hi hp hs hd hf hlt
  have hx : s.phase.exchange = true := by rw [hp]; rfl
  have hrest : s.line.fifo.tail = rest := by rw [hf]; rfl
  by_cases hlast : s.seq.i.toNat + 1 = n.toNat
  · have hn : n ≠ 0 := by rintro rfl; simp at hlt
    refine ⟨_, exec_of_exchange hi hx (.popLast n b rest hp hs hd hf hlast.ge), ?_⟩
    rw [State.endReception_pos _ hn, if_pos hlast, if_pos hlast, ← hrest]
    exact ⟨s.storesAt_takeByte b s.seq, rfl⟩
  · refine ⟨_, exec_of_exchange hi hx (.popNext n b rest hp hs hd hf (by omega)), s.storesAt_takeByte b _, ?_⟩
    rw [if_neg hlast, if_neg hlast, ← hrest, ← hp]
    rfl

/-! ## REASSEMBLE -/

theorem satSucc_eq (k : Half) : satSucc k = if k = 0xFFFF then 0xFFFF else k + 1 := by
  unfold satSucc
  split
  · assumption
  · rfl

theorem satSucc_toNat (k : Half) : (satSucc k).toNat = min (k.toNat + 1) 0xFFFF := by
  have hk := k.isLt
  rw [satSucc_eq]
  split_ifs with h
  · rw [h]
    rfl
  · bv_omega

theorem satSucc_ne_zero (k : Half) : satSucc k ≠ 0 := by
  intro h
  have hk := satSucc_toNat k
  rw [h] at hk
  change 0 = _ at hk
  omega

/-- The bytes received once one more is kept (rule R219). -/
theorem State.bytes_takeByte {s : State} (b : Byte) (q : Seq) (hi : s.seq.i.toNat < 259) :
    (s.takeByte b q).bytes 0x600 (s.seq.i.toNat + 1) = s.bytes 0x600 s.seq.i.toNat ++ [b] := by
  have hreads := s.storesAt_takeByte b q
  rw [if_pos hi] at hreads
  have hnew : (s.takeByte b q).peek (0x600 + s.seq.i.toNat) s.seq.i.toNat = b := by
    refine State.peek_of_read ?_
    rw [hreads, if_pos (by simp), Nat.sub_self]
    rfl
  have hold : (s.takeByte b q).bytes 0x600 s.seq.i.toNat = s.bytes 0x600 s.seq.i.toNat :=
    State.bytes_congr rfl fun k hk => by rw [hreads, if_neg (by omega)]
  rw [← hold, State.bytes, List.range_succ, List.map_append, List.map_singleton, hnew]
  rfl

/-- The completeness test of rule R219, after the pop of `b`. -/
theorem State.reasmTaken_complete_iff (s : State) (b : Byte) :
    (s.reasmTaken b).complete (satSucc s.seq.i).toNat = true ↔
      s.seq.i.toNat < 259 ∧ ∃ r, decodeFrame (s.bytes 0x600 s.seq.i.toNat ++ [b]) = .ok r := by
  have hk := satSucc_toNat s.seq.i
  rw [State.complete, Bool.and_eq_true, decide_eq_true_eq, Config.frameMax]
  by_cases hi : s.seq.i.toNat < 259
  · have hnext : (satSucc s.seq.i).toNat = s.seq.i.toNat + 1 := by omega
    have hbytes := State.bytes_takeByte b { s.seq with i := satSucc s.seq.i } hi
    rw [hnext, Config.rxbBase, State.reasmTaken, hbytes]
    refine and_congr (iff_of_true (by omega) hi) ?_
    cases decodeFrame (s.bytes 0x600 s.seq.i.toNat ++ [b]) <;> simp
  · exact iff_of_false (fun h => by omega) (fun h => hi h.1)

/-- Settles O36: the five ways through an iteration; the completeness test reads the byte just kept. -/
theorem reassemblyTakesAtMostOneByteACycle : Obligations.ReassemblyTakesAtMostOneByteACycle := by
  intro i s hi hp
  have hx : s.phase.exchange = true := by rw [hp]; rfl
  refine ⟨fun ht hk => ?_, fun ht hk hreply => ?_, fun ht hf => exec_of_exchange hi hx (.reasmWait hp ht hf),
    fun b rest ht hf => ?_⟩
  · rw [exec_of_exchange hi hx (.timeout hp ht), State.endReception_pos _ hk]
    rfl
  · rw [exec_of_exchange hi hx (.timeout hp ht), hk, State.endReception_zero, endOf_noReply hreply]
  · intro k whole
    have hrest : s.line.fifo.tail = rest := by rw [hf]; rfl
    have hwhole : (s.reasmTaken b).complete (satSucc s.seq.i).toNat = true ↔ whole := s.reasmTaken_complete_iff b
    have hsucc : satSucc s.seq.i = k := satSucc_eq s.seq.i
    by_cases hc : whole
    · refine ⟨_, exec_of_exchange hi hx (.reasmWhole b rest hp ht hf (hwhole.mpr hc)), ?_⟩
      rw [State.endReception_pos _ (satSucc_ne_zero _), ← hsucc, ← hrest]
      exact ⟨s.storesAt_takeByte b s.seq, fun _ => rfl, fun h => absurd hc h⟩
    · have hmore := Bool.eq_false_iff.mpr (mt hwhole.mp hc)
      refine ⟨_, exec_of_exchange hi hx (.reasmMore b rest hp ht hf hmore), s.storesAt_takeByte b _,
        fun h => absurd h hc, fun _ => ?_⟩
      rw [← hsucc, ← hrest]
      rfl

end Sys2Proof.Machine

/-! PROOF. The last cycle of the status parse (rules R216, R230 to R234), and SCAN between its pings (rules R215, R234). -/

namespace Sys2Proof.Machine

/-! ## The status parse -/

/-- The parse's last cycle hands the reply to the command's end (rule R216). -/
theorem exec_parse {i : Instr} {s : State} {r : Reply} (hi : i ∈ channelInstrs) (h : s.atParseEnd)
    (hr : parseStatus s.rxn.toNat (s.rxFrame s.rxn.toNat) = r) :
    exec i s = .next (endOf i r (s.ready.setCsu (csuAfterDecode s.rxn.toNat (s.rxFrame s.rxn.toNat) s.csu))) := by
  obtain ⟨hp, hd⟩ := h
  rw [exec_of_exchange hi (by rw [hp]; rfl) (.parse hp hd), ← hr]
  rfl

/-- The reply of a malformed packet (rule R158). -/
theorem parse_malformed {s : State} {e : ResultCode} (hd : decodeFrame (s.bytes 0x600 s.rxn.toNat) = .error e) :
    parseStatus s.rxn.toNat (s.rxFrame s.rxn.toNat) = .malformed e :=
  parseStatus_of_error ((s.decodeCounted_rxFrame _).trans hd)

/-- The reply of a frame from the broadcast id (rule R158). -/
theorem parse_broadcast {s : State} {p : List Byte} (hd : decodeFrame (s.bytes 0x600 s.rxn.toNat) = .ok (0xFE, p)) :
    parseStatus s.rxn.toNat (s.rxFrame s.rxn.toNat) = .malformed .badReplyId :=
  parseStatus_of_broadcast ((s.decodeCounted_rxFrame _).trans hd)

/-- The reply of any other frame (rule R158). -/
theorem parse_status {s : State} {id : Byte} {p : List Byte}
    (hd : decodeFrame (s.bytes 0x600 s.rxn.toNat) = .ok (id, p)) (hfe : id ≠ 0xFE) :
    parseStatus s.rxn.toNat (s.rxFrame s.rxn.toNat) = .status { id := id, err := p.headD 0, params := p.tail } :=
  parseStatus_of_ok ((s.decodeCounted_rxFrame _).trans hd) hfe (decodeFrame_ok_id hd)

/-- The parameters of a decoded status fit QB. -/
theorem tail_length_le {s : State} {id : Byte} {p : List Byte}
    (hd : decodeFrame (s.bytes 0x600 s.rxn.toNat) = .ok (id, p)) : p.tail.length ≤ 256 := by
  have := State.decodeFrame_payload_length hd
  rw [List.length_tail]
  omega

theorem endOf_send_rdd {i : Instr} (hi : i = .send ∨ i = .rdd) : i ∈ channelInstrs ∧ endOf i = State.endWithReply := by
  rcases hi with rfl | rfl <;> exact ⟨by decide, rfl⟩

/-- Settles O38: the three replies of a parse, and the outputs of each. -/
theorem sendAndRddEndWithTheStatus : Obligations.SendAndRddEndWithTheStatus := by
  intro i s hi h f
  obtain ⟨hchannel, hend⟩ := endOf_send_rdd hi
  refine ⟨fun e hd => ⟨_, exec_parse hchannel h (parse_malformed hd), ?_⟩,
    fun p hd => ⟨_, exec_parse hchannel h (parse_broadcast hd), ?_⟩,
    fun id p hd hfe => ⟨_, exec_parse hchannel h (parse_status hd hfe), ?_⟩⟩
  · rw [hend]
    exact ⟨holdsQb_forgetQb s, rfl⟩
  · rw [hend]
    exact ⟨holdsQb_forgetQb s, rfl⟩
  · rw [hend, ← List.length_tail]
    exact ⟨holdsQb_putQb (tail_length_le hd), rfl⟩

/-- Settles O39: WRD takes the reply's code and nothing else. -/
theorem wrdDiscardsTheReplyButKeepsItsResult : Obligations.WrdDiscardsTheReplyButKeepsItsResult := by
  intro s h f
  have hi : Instr.wrd ∈ channelInstrs := by decide
  exact ⟨fun e hd => ⟨_, exec_parse hi h (parse_malformed hd), rfl⟩,
    fun p hd => ⟨_, exec_parse hi h (parse_broadcast hd), rfl⟩,
    fun id p hd hfe => ⟨_, exec_parse hi h (parse_status hd hfe), rfl⟩⟩

/-- Settles O40: only a status can match the pinged id. -/
theorem pingEndsWithPingok : Obligations.PingEndsWithPingok := by
  intro s h f
  have hi : Instr.ping ∈ channelInstrs := by decide
  refine ⟨fun e hd => ⟨_, exec_parse hi h (parse_malformed hd), holdsQb_forgetQb s, rfl⟩,
    fun p hd => ⟨_, exec_parse hi h (parse_broadcast hd), holdsQb_forgetQb s, rfl⟩,
    fun id p hd hfe => ⟨_, exec_parse hi h (parse_status hd hfe), holdsQb_putQb (tail_length_le hd), ?_⟩⟩
  rw [← List.length_tail, Bool.decide_and]
  rfl

/-! ## SCAN between its pings -/

/-- Before SCANHI the next id follows (rule R234). -/
theorem State.scanNext_next {s : State} (h : s.seq.scanId.toNat < s.regs.scanhi.toNat) :
    s.scanNext = (s.setSeq { s.seq with scanId := s.seq.scanId + 1 }).enter .scanStep := if_pos h

/-- After SCANHI SCAN ends (rule R234). -/
theorem State.scanNext_end {s : State} (h : s.regs.scanhi.toNat ≤ s.seq.scanId.toNat) : s.scanNext = s.scanFinish :=
  if_neg h.not_gt

/-- Settles O42: in both modes no reply matches no id, and SCAN goes on from the state with RXN = 0. -/
theorem scanGoesOnAfterNoReply : Obligations.ScanGoesOnAfterNoReply := by
  intro s hcase
  have hexec : exec .scan s = .next (s.setRxn 0).scanNext := by
    rcases hcase with ⟨hp, hs, hf⟩ | ⟨hp, ht, hk⟩
    · exact exec_of_exchange (by decide) (by rw [hp]; rfl) (.sampleNone hp hs hf)
    · rw [exec_of_exchange (by decide) (by rw [hp]; rfl) (.timeout hp ht), hk, State.endReception_zero]
      rfl
  rw [hexec]
  refine ⟨fun hlt => ?_, fun hge => ?_⟩
  · rw [State.scanNext_next (s := s.setRxn 0) hlt]
    rfl
  · obtain ⟨hlow, hlist⟩ := (s.setRxn 0).scanFinish_reads
    rw [State.scanNext_end (s := s.setRxn 0) hge]
    exact ⟨_, rfl, hlow, hlist, rfl⟩

/-- The state of SCAN once a ping's outputs are written and a matching responder is noted. -/
def State.scanNoted (r : Reply) (s : State) : State :=
  if r.matchesId s.seq.scanId then (State.scanOutputs r s).scanRecord else State.scanOutputs r s

theorem State.scanReply_eq (r : Reply) (s : State) : State.scanReply r s = (State.scanNoted r s).scanNext := by
  unfold State.scanReply State.scanNoted
  split <;> rfl

/-- A ping's outputs are RID, RERR, QN and QB. -/
theorem State.scanOutputs_eq (r : Reply) (s : State) : State.scanOutputs r s = { s with
    res := { s.res with
      rid := (State.scanOutputs r s).res.rid, rerr := (State.scanOutputs r s).res.rerr
      qn := (State.scanOutputs r s).res.qn }
    mem := (State.scanOutputs r s).mem } := by
  cases r <;> rfl

theorem State.scanOutputs_read {r : Reply} (hr : r.Short) (s : State) {a : Nat} (ha : 0x300 ≤ a) :
    Mem.read (State.scanOutputs r s).mem a = Mem.read s.mem a := by
  cases r with
  | noReply => rfl
  | malformed c => rw [State.scanOutputs, holdsQb_forgetQb, if_neg (by simp only [Config.qbBase]; omega)]
  | status st =>
    rw [State.scanOutputs, State.putStatus, holdsQb_putQb (hr st rfl), if_neg (by simp only [Config.qbBase]; omega)]
    rfl

/-- Noting a responder writes SCANLIST[m] and m. -/
theorem State.scanNoted_eq (r : Reply) (s : State) : State.scanNoted r s = { s with
    res := { s.res with
      rid := (State.scanNoted r s).res.rid, rerr := (State.scanNoted r s).res.rerr
      qn := (State.scanNoted r s).res.qn }
    mem := (State.scanNoted r s).mem
    seq := { s.seq with scanM := if r.matchesId s.seq.scanId then s.seq.scanM + 1 else s.seq.scanM } } := by
  unfold State.scanNoted
  split
  · cases r <;> rfl
  · cases r <;> rfl

theorem State.scanNoted_read {r : Reply} (hr : r.Short) (s : State) {a : Nat} (ha : 0x300 ≤ a) :
    Mem.read (State.scanNoted r s).mem a =
      if r.matchesId s.seq.scanId = true ∧ a = 0x300 + s.seq.scanM.toNat then some s.seq.scanId
      else Mem.read s.mem a := by
  have hseq : (State.scanOutputs r s).seq = s.seq := by rw [State.scanOutputs_eq]
  unfold State.scanNoted
  split
  · rename_i hm
    rw [State.scanRecord, State.setSeq_mem, State.setMem_mem, Mem.read_write, State.scanOutputs_read hr s ha, hseq]
    exact if_congr (and_iff_right hm).symm rfl rfl
  · rename_i hm
    rw [State.scanOutputs_read hr s ha, if_neg fun h => hm h.1]

theorem Keeps.scanNoted {r : Reply} (hr : r.Short) (s : State) : Keeps s (State.scanNoted r s) := by
  unfold State.scanNoted
  split
  · exact (Keeps.scanOutputs hr s).trans (Keeps.scanRecord _)
  · exact Keeps.scanOutputs hr s

/-- A ping's reply matches exactly when it is an `OK` status of the pinged id. -/
theorem parse_matchesId_iff (s : State) (id : Byte) :
    (parseStatus s.rxn.toNat (s.rxFrame s.rxn.toNat)).matchesId id = true ↔
      ∃ p, decodeFrame (s.bytes 0x600 s.rxn.toNat) = .ok (id, p) ∧ id ≠ 0xFE ∧ statusCode (p.headD 0) = .ok := by
  cases hd : decodeFrame (s.bytes 0x600 s.rxn.toNat) with
  | error e => simp [parse_malformed hd, Reply.matchesId]
  | ok r =>
    obtain ⟨id', p⟩ := r
    by_cases hfe : id' = 0xFE
    · subst hfe
      rw [parse_broadcast hd]
      simp only [Reply.matchesId, Bool.false_eq_true, false_iff]
      rintro ⟨q, hq, hne, -⟩
      cases hq
      exact hne rfl
    · rw [parse_status hd hfe]
      simp only [Reply.matchesId, Bool.and_eq_true, decide_eq_true_eq]
      refine ⟨fun ⟨hok, hid⟩ => ?_, fun ⟨q, hq, hne, hok⟩ => ?_⟩
      · subst hid
        exact ⟨p, rfl, hfe, hok⟩
      · cases hq
        exact ⟨hok, rfl⟩

/-- What the move to the next id or to the end leaves of PB and of the noted entries. -/
theorem State.scanNext_reads (s : State) :
    (∀ a < 0x200, Mem.read s.scanNext.mem a = Mem.read s.mem a) ∧
    ∀ k < s.seq.scanM.toNat, Mem.read s.scanNext.mem (0x300 + k) = Mem.read s.mem (0x300 + k) := by
  by_cases h : s.seq.scanId.toNat < s.regs.scanhi.toNat
  · rw [State.scanNext_next h]
    exact ⟨fun _ _ => rfl, fun _ _ => rfl⟩
  · rw [State.scanNext_end (by omega)]
    exact s.scanFinish_reads

/-- The counter m once a reply is noted or not. -/
theorem State.scanNoted_seq (r : Reply) (s : State) : (State.scanNoted r s).seq =
    { s.seq with scanM := if r.matchesId s.seq.scanId then s.seq.scanM + 1 else s.seq.scanM } := by
  rw [State.scanNoted_eq]

/-- Settles O41: the reply is noted or not, and then SCAN goes on to the next id or to its end. -/
theorem scanCollectsMatchingResponders : Obligations.ScanCollectsMatchingResponders := by
  intro s h f hit m
  let r := parseStatus s.rxn.toNat (s.rxFrame s.rxn.toNat)
  let u := s.ready.setCsu (csuAfterDecode s.rxn.toNat (s.rxFrame s.rxn.toNat) s.csu)
  have hexec : exec .scan s = .next (State.scanNoted r u).scanNext :=
    (exec_parse (by decide) h rfl).trans (congrArg _ (State.scanReply_eq r u))
  have hshort : r.Short := Reply.short_parse s _
  have hhit : r.matchesId s.seq.scanId = true ↔ hit := parse_matchesId_iff s s.seq.scanId
  have hseq := State.scanNoted_seq r u
  have hread {k : Nat} : Mem.read (State.scanNoted r u).mem (0x300 + k) = _ :=
    State.scanNoted_read hshort u (Nat.le_add_right _ _)
  obtain ⟨hlow, hkeep⟩ := (State.scanNoted r u).scanNext_reads
  rw [hseq] at hkeep
  have hcount : m.toNat < 255 → (m + 1).toNat = m.toNat + 1 := fun hm => by bv_omega
  refine ⟨_, if r.matchesId s.seq.scanId then m + 1 else m, hexec, fun hh => if_pos (hhit.mpr hh),
    fun hh => if_neg (mt hhit.mp hh), fun a ha => (hlow a ha).trans ((Keeps.scanNoted hshort u).low a ha),
    fun k hk hm => ?_, fun hh hm => ?_, fun hlt => ?_, fun hge => ?_⟩
  · have hk' : k < (if r.matchesId s.seq.scanId then m + 1 else m).toNat := by
      split
      · rw [hcount hm]
        omega
      · exact hk
    rw [hkeep k hk', hread, if_neg fun hh => hk.ne (Nat.add_left_cancel hh.2)]
    rfl
  · have hmatch := hhit.mpr hh
    have hk' : m.toNat < (if r.matchesId s.seq.scanId then m + 1 else m).toNat := by
      rw [if_pos hmatch, hcount hm]
      omega
    rw [hkeep m.toNat hk', hread, if_pos ⟨hmatch, rfl⟩]
    rfl
  · rw [State.scanNext_next (by rw [State.scanNoted_eq]; exact hlt), State.scanNoted_eq]
    rfl
  · rw [State.scanNext_end (by rw [State.scanNoted_eq]; exact hge), State.scanNoted_eq]
    rfl

end Sys2Proof.Machine

/-! PROOF. The invariant: it holds at reset, every step keeps it, and it leaves no step without a next state. -/

namespace Sys2Proof.Machine

/-! ## Which units run on the channel -/

/-- The commands with the codes 0x06 to 0x0A are the channel commands, and 0x0A is SCAN (rule R96). -/
theorem commandOf_channel : ∀ c : Byte, ∀ i ∈ commandOf c,
    (i ∈ channelInstrs ↔ 0x06 ≤ c.toNat ∧ c.toNat ≤ 0x0A) ∧ (i = .scan ↔ c = 0x0A) := by decide +kernel

/-- `i` runs where the latched code is its own, as far as the phases ask (rules R44, R96). -/
def RunsAs (i : Instr) (c : Byte) : Prop := (i ∈ channelInstrs ↔ channelCode c) ∧ (i = .scan ↔ c = 0x0A)

theorem instrOfOpcode_isLocal (op : Opcode) : instrOfOpcode op ∉ channelInstrs ∧ instrOfOpcode op ≠ .scan := by
  cases op <;> decide

theorem runsAs_of_decode {p : Params} {c o : Byte} {i : Instr} (h : decode p [c, o] = .ok i) : RunsAs i c := by
  by_cases hc : c = 0x04
  · subst hc
    cases ho : p.opcodeOf o with
    | none =>
      rw [decode_bld_of_none ho] at h
      cases h
      exact ⟨by unfold channelCode; decide, by decide⟩
    | some op =>
      rw [decode_bld_of_some ho] at h
      cases h
      obtain ⟨h1, h2⟩ := instrOfOpcode_isLocal op
      exact ⟨iff_of_false h1 (by unfold channelCode; decide), iff_of_false h2 (by decide)⟩
  · rw [decode_pair_of_ne o hc] at h
    cases hi : commandOf c with
    | none => rw [decode_of_none _ hi] at h; cases h
    | some j =>
      rw [decode_single_of_some hi] at h
      cases h
      exact commandOf_channel c i hi

theorem decode_ok_of_channelCode {p : Params} {c o : Byte} (h : channelCode c) : ∃ i, decode p [c, o] = .ok i := by
  obtain ⟨h1, h2⟩ := h
  exact (decode_pair_ok_iff p c o).mpr ⟨by omega, by omega⟩

theorem channelCode_scan : channelCode 0x0A := by unfold channelCode; decide

/-! ## The invariant phase by phase -/

/-- In IDLE the invariant asks for the buffers and SCANN alone. -/
theorem State.Inv.of_idle {s : State} (hwf : Mem.Wf s.mem) (hp : s.phase = .idle) (hb : s.stat.busy = false)
    (hn : s.res.scann.toNat ≤ 254) : s.Inv where
  memWf := hwf
  notBoth := fun h => by rw [hb] at h; cases h
  idleIff := iff_of_true hp hb
  launched := fun h => by rw [hp] at h; cases h
  scanStep := fun h => by rw [hp] at h; cases h
  frame := fun h => by rw [hp] at h; rcases h with h | h <;> cases h
  txIndex := fun h => by rw [hp] at h; cases h
  settle := fun h => by rw [hp] at h; cases h
  snap := fun h => by rw [hp] at h; cases h
  reasm := fun h => by rw [hp] at h; cases h
  parse := fun h => by rw [hp] at h; cases h
  scan := fun h => by rw [State.scanning, hp] at h; rcases h with h | ⟨h, -⟩ <;> cases h
  scann := hn

/-- In LOCAL the handshake stands at BUSY. -/
theorem State.Inv.of_localCmd {s : State} (hwf : Mem.Wf s.mem) (hp : s.phase = .localCmd) (hb : s.stat.busy = true)
    (hd : s.stat.done = false) (hn : s.res.scann.toNat ≤ 254) : s.Inv where
  memWf := hwf
  notBoth := fun _ => hd
  idleIff := iff_of_false (by rw [hp]; decide) (by rw [hb]; decide)
  launched := fun h => by rw [hp] at h; cases h
  scanStep := fun h => by rw [hp] at h; cases h
  frame := fun h => by rw [hp] at h; rcases h with h | h <;> cases h
  txIndex := fun h => by rw [hp] at h; cases h
  settle := fun h => by rw [hp] at h; cases h
  snap := fun h => by rw [hp] at h; cases h
  reasm := fun h => by rw [hp] at h; cases h
  parse := fun h => by rw [hp] at h; cases h
  scan := fun h => by rw [State.scanning, hp] at h; rcases h with h | ⟨h, -⟩ <;> cases h
  scann := hn

/-- What the invariant says of a channel command after its launch, whatever the phase, but for SCAN's range. -/
structure State.OnChannel (s : State) : Prop where
  memWf  : Mem.Wf s.mem
  busy   : s.stat.busy = true
  done   : s.stat.done = false
  opened : s.stat.opened = true
  code   : channelCode s.seq.cmd
  scann  : s.res.scann.toNat ≤ 254

/-- SCAN's cursor is in its range, and at most the ids before it, and `d` more, are counted (rule R234). -/
def State.scanRange (s : State) (d : Nat) : Prop :=
  s.seq.scanM.toNat + s.regs.scanlo.toNat ≤ s.seq.scanId.toNat + d ∧ s.seq.scanId.toNat ≤ s.regs.scanhi.toNat ∧
    s.regs.scanhi.toNat ≤ 0xFD

/-- What the invariant says of a channel command after its launch, whatever the phase. -/
structure State.Running (s : State) : Prop extends s.OnChannel where
  scan : s.seq.cmd = 0x0A → s.scanRange 0

/-- TXB holds a frame of TXN bytes (rule R93). -/
def State.frameReady (s : State) : Prop :=
  6 ≤ s.res.txn.toNat ∧ s.res.txn.toNat ≤ 259 ∧
    ∀ k < s.res.txn.toNat, (Mem.read s.mem (Config.txbBase + k)).isSome = true

/-- What the invariant adds in each phase. -/
def State.phaseInv (s : State) : Prop :=
  match s.phase with
  | .flush => s.frameReady
  | .tx => s.frameReady ∧ s.seq.i.toNat < s.res.txn.toNat
  | .settle => s.seq.rxmode = false ∧ s.seq.t.toNat < s.regs.settle.toNat ∧ s.seq.snap = none
  | .snap => s.seq.rxmode = false ∧ ∀ n, s.seq.snap = some n →
      s.seq.i.toNat < n.toNat ∧ n.toNat ≤ s.seq.i.toNat + s.line.fifo.length ∧ s.received s.seq.i.toNat
  | .reasm => s.seq.rxmode = true ∧ s.seq.t.toNat ≤ s.regs.timeout.toNat ∧ s.received s.seq.i.toNat
  | .parse => s.rxn ≠ 0 ∧ s.received s.rxn.toNat
  | .scanStep => s.seq.cmd = 0x0A
  | .idle | .localCmd => False

/-- After the launch the invariant is `Running` and the phase's own part. -/
theorem State.Running.inv {s : State} (h : s.Running) (hph : s.phaseInv) : s.Inv := by
  have hscan : s.scanning → s.scanRange 0 := fun hs => hs.elim
    (fun hp => h.scan (by rwa [State.phaseInv, hp] at hph)) (fun hs => h.scan hs.2)
  rw [State.phaseInv] at hph
  refine ⟨h.memWf, fun _ => h.done, iff_of_false ?_ (by rw [h.busy]; decide), fun _ => ⟨h.opened, h.code⟩,
    fun hp => ⟨h.opened, ?_⟩, ?_, fun hp => ?_, fun hp => ?_, fun hp => ?_, fun hp => ?_, fun hp => ?_, hscan, h.scann⟩
  · intro hp
    rwa [hp] at hph
  · rwa [hp] at hph
  · rintro (hp | hp) <;> rw [hp] at hph
    · exact hph
    · exact hph.1
  · rw [hp] at hph
    exact hph.2
  all_goals rwa [hp] at hph

/-- The phase's own part, from the invariant. -/
theorem State.Inv.phaseInv {s : State} (h : s.Inv) (hx : s.phase.exchange = true ∨ s.phase = .scanStep) :
    s.phaseInv := by
  rw [State.phaseInv]
  cases hp : s.phase with
  | idle | localCmd => rw [hp] at hx; rcases hx with hx | hx <;> cases hx
  | flush => exact h.frame (.inl hp)
  | tx => exact ⟨h.frame (.inr hp), h.txIndex hp⟩
  | settle => exact h.settle hp
  | snap => exact h.snap hp
  | reasm => exact h.reasm hp
  | parse => exact h.parse hp
  | scanStep => exact (h.scanStep hp).2

theorem State.Inv.busy {s : State} (h : s.Inv) (hp : s.phase ≠ .idle) : s.stat.busy = true := by
  by_contra hb
  exact hp (h.idleIff.mpr (Bool.eq_false_iff.mpr hb))

/-- After the launch the invariant gives `Running`. -/
theorem State.Inv.running {s : State} (h : s.Inv) (hx : s.phase.exchange = true ∨ s.phase = .scanStep) : s.Running := by
  have hb : s.stat.busy = true := h.busy fun hp => by rw [hp] at hx; rcases hx with hx | hx <;> cases hx
  have hcode : s.stat.opened = true ∧ channelCode s.seq.cmd := hx.elim h.launched fun hp =>
    ⟨(h.scanStep hp).1, (h.scanStep hp).2 ▸ channelCode_scan⟩
  exact ⟨⟨h.memWf, hb, h.notBoth hb, hcode.1, hcode.2, h.scann⟩, fun hc =>
    h.scan (hx.elim (fun hx => .inr ⟨hx, hc⟩) .inl)⟩

/-- `OnChannel` depends on the buffers, STAT, the latched code and SCANN alone. -/
theorem State.OnChannel.of_eq {s t : State} (h : s.OnChannel) (hwf : Mem.Wf t.mem) (hstat : t.stat = s.stat)
    (hcmd : t.seq.cmd = s.seq.cmd) (hn : t.res.scann = s.res.scann) : t.OnChannel :=
  ⟨hwf, hstat ▸ h.busy, hstat ▸ h.done, hstat ▸ h.opened, hcmd ▸ h.code, hn ▸ h.scann⟩

theorem State.Running.of_eq {s t : State} (h : s.Running) (hwf : Mem.Wf t.mem) (hstat : t.stat = s.stat)
    (hcmd : t.seq.cmd = s.seq.cmd) (hid : t.seq.scanId = s.seq.scanId) (hm : t.seq.scanM = s.seq.scanM)
    (hregs : t.regs = s.regs) (hn : t.res.scann = s.res.scann) : t.Running :=
  ⟨h.toOnChannel.of_eq hwf hstat hcmd hn, fun hc => by
    have := h.scan (hcmd ▸ hc)
    rwa [State.scanRange, ← hid, ← hm, ← hregs] at this⟩

/-- The count of a step's cycles is not in the invariant. -/
theorem State.Inv.setDly {s : State} (h : s.Inv) (d : Nat) : (s.setSeq { s.seq with dly := d }).Inv :=
  ⟨h.memWf, h.notBoth, h.idleIff, h.launched, h.scanStep, h.frame, h.txIndex, h.settle, h.snap, h.reasm, h.parse, h.scan,
    h.scann⟩

/-! ## The ends -/

/-- A command's end, and every other move to IDLE that keeps SCANN. -/
theorem State.OnChannel.inv_of_end {s t : State} (h : s.OnChannel) (hk : Keeps s t) (hp : t.phase = .idle)
    (hb : t.stat.busy = false) (hn : t.res.scann = s.res.scann) : t.Inv :=
  .of_idle (hk.wf h.memWf) hp hb (hn ▸ h.scann)

/-- SCAN goes on to an id in its range, or ends with at most 254 responders (rules R43, R234). -/
theorem State.OnChannel.inv_scanNext {s : State} (h : s.OnChannel) (hc : s.seq.cmd = 0x0A) (hr : s.scanRange 1) :
    s.scanNext.Inv := by
  obtain ⟨hm, hid, hhi⟩ := hr
  have hm255 := s.seq.scanM.isLt
  by_cases hlt : s.seq.scanId.toNat < s.regs.scanhi.toNat
  · rw [State.scanNext_next hlt]
    have hsucc : (s.seq.scanId + 1).toNat = s.seq.scanId.toNat + 1 := by bv_omega
    have hrun : ((s.setSeq { s.seq with scanId := s.seq.scanId + 1 }).enter .scanStep).Running :=
      ⟨h.of_eq h.memWf rfl rfl rfl, fun _ => by
        refine ⟨?_, ?_, hhi⟩
        · change _ ≤ (s.seq.scanId + 1).toNat + 0
          rw [hsucc]
          exact hm
        · change (s.seq.scanId + 1).toNat ≤ _
          rw [hsucc]
          exact hlt⟩
    exact hrun.inv hc
  · rw [State.scanNext_end (by omega)]
    refine .of_idle ((Keeps.scanFinish s).wf h.memWf) rfl rfl ?_
    change s.seq.scanM.toNat ≤ 254
    omega

/-- SEND, RDD, WRD and PING end with the reply, and SCANN is not theirs. -/
theorem endOf_ends {i : Instr} (hi : i ≠ .scan) (r : Reply) (s : State) :
    (endOf i r s).phase = .idle ∧ (endOf i r s).stat.busy = false ∧ (endOf i r s).res.scann = s.res.scann := by
  have hreply (u : State) (hu : u.res = s.res) : (State.endWithReply r u).phase = .idle ∧
      (State.endWithReply r u).stat.busy = false ∧ (State.endWithReply r u).res.scann = s.res.scann := by
    rw [← hu]
    cases r <;> exact ⟨rfl, rfl, rfl⟩
  cases i with
  | scan => exact absurd rfl hi
  | wrd => exact ⟨rfl, rfl, rfl⟩
  | ping => exact hreply _ rfl
  | chk | enc | dec | bld | pst | send | rdd | openCh | closeCh => exact hreply s rfl
  | insPing | insRead | insWrite | insRegWrite | insAction | insReset | insSyncWrite => exact hreply s rfl

/-- The end of a reception keeps the invariant; in SCAN, a responder is one of the ids up to the cursor. -/
theorem State.Running.inv_endOf {i : Instr} {s : State} (h : s.Running) (hi : RunsAs i s.seq.cmd) {r : Reply}
    (hr : r.Short) : (endOf i r s).Inv := by
  by_cases hscan : i = .scan
  · subst hscan
    have hc := hi.2.mp rfl
    obtain ⟨hm, hid, hhi⟩ := h.scan hc
    have hm255 := s.seq.scanM.isLt
    rw [endOf, State.scanReply_eq]
    have hseq := State.scanNoted_seq r s
    refine State.OnChannel.inv_scanNext (h.toOnChannel.of_eq ((Keeps.scanNoted hr s).wf h.memWf) ?_ ?_ ?_) ?_ ?_
    · rw [State.scanNoted_eq]
    · rw [State.scanNoted_eq]
    · rw [State.scanNoted_eq]
    · rw [hseq]
      exact hc
    · rw [State.scanRange, hseq, (Keeps.scanNoted hr s).regs]
      refine ⟨?_, hid, hhi⟩
      dsimp only
      split
      · have hsucc : (s.seq.scanM + 1).toNat ≤ s.seq.scanM.toNat + 1 := by bv_omega
        omega
      · omega
  · obtain ⟨hp, hb, hn⟩ := endOf_ends hscan r s
    exact h.inv_of_end (Keeps.endOf hr s) hp hb hn

/-! ## The exchange -/

/-- A byte kept at index I extends what is received (rules R213, R218). -/
theorem State.received_takeByte {s : State} (b : Byte) (q : Seq) {n : Nat} (h : s.received s.seq.i.toNat)
    (hn : n ≤ s.seq.i.toNat + 1) : (s.takeByte b q).received n := by
  intro k hk
  obtain ⟨hkn, hk259⟩ := lt_min_iff.mp hk
  change (Mem.read (s.takeByte b q).mem (0x600 + k)).isSome = true
  rw [s.storesAt_takeByte b q]
  rcases Nat.lt_or_ge k s.seq.i.toNat with hold | hnew
  · rw [if_neg (by omega)]
    exact h k (lt_min hold hk259)
  · have hki : k = s.seq.i.toNat := by omega
    have hi : s.seq.i.toNat < 259 := hki ▸ hk259
    rw [if_pos hi, if_pos ⟨by omega, by rw [List.length_singleton]; omega⟩, hki, Nat.sub_self]
    rfl

theorem State.received_zero (s : State) : s.received 0 := fun k hk => by omega

/-- Reception begins with nothing received, and a settle wait is not over (rules R210, R212). -/
theorem State.Running.inv_startReception {s : State} (h : s.Running) : s.startReception.Inv := by
  rw [State.startReception_eq, State.receptionPhase]
  refine State.Running.inv (h.of_eq h.memWf rfl rfl rfl rfl rfl rfl) ?_
  rw [State.phaseInv]
  dsimp only
  split_ifs with hmode hsettle
  · exact ⟨hmode, Nat.zero_le _, State.received_zero _⟩
  · exact ⟨Bool.eq_false_iff.mpr hmode, fun n hn => by cases hn⟩
  · refine ⟨Bool.eq_false_iff.mpr hmode, ?_, rfl⟩
    exact Nat.pos_of_ne_zero fun h0 => hsettle (BitVec.eq_of_toNat_eq h0)

/-- The end of a reception: a parse of what is received, or no reply (rules R213, R215, R218). -/
theorem State.Running.inv_endReception {i : Instr} {s : State} (h : s.Running) (hi : RunsAs i s.seq.cmd) {n : Half}
    (hn : s.received n.toNat) : (s.endReception n (endOf i)).Inv := by
  by_cases h0 : n = 0
  · subst h0
    rw [State.endReception_zero]
    exact State.Running.inv_endOf (s := s.setRxn 0) (h.of_eq h.memWf rfl rfl rfl rfl rfl rfl) hi Reply.short_noReply
  · rw [State.endReception_pos _ h0]
    exact State.Running.inv (h.of_eq h.memWf rfl rfl rfl rfl rfl rfl) ⟨h0, hn⟩

/-- The pop of a byte keeps `Running`. -/
theorem State.Running.takeByte {s : State} (h : s.Running) (b : Byte) {q : Seq} (hcmd : q.cmd = s.seq.cmd)
    (hid : q.scanId = s.seq.scanId) (hm : q.scanM = s.seq.scanM) : (s.takeByte b q).Running :=
  h.of_eq ((Keeps.keepByte s b).wf h.memWf) rfl hcmd hid hm rfl rfl

/-- Every cycle of the exchange keeps the invariant. -/
theorem State.Inv.exchange {i : Instr} {s t : State} (hinv : s.Inv) (hx : s.phase.exchange = true)
    (hi : RunsAs i s.seq.cmd) (h : Exchange (endOf i) s t) : t.Inv := by
  have hrun := hinv.running (.inl hx)
  cases h with
  | flushWait | popWait | parseWait => exact hinv.setDly _
  | flush hp =>
    obtain ⟨h6, h259, hbytes⟩ := hinv.frame (.inl hp)
    refine State.Running.inv (hrun.of_eq hrun.memWf rfl rfl rfl rfl rfl rfl) ⟨⟨h6, h259, hbytes⟩, ?_⟩
    exact Nat.lt_of_lt_of_le (Nat.zero_lt_succ 5) h6
  | txEmpty => exact hrun.inv_startReception
  | txStall hp hi =>
    refine State.Running.inv (hrun.of_eq hrun.memWf rfl rfl rfl rfl rfl rfl) ?_
    rw [State.phaseInv, State.uartSend_phase, hp]
    exact ⟨hinv.frame (.inr hp), hi⟩
  | txNext hp hi =>
    refine State.Running.inv (hrun.of_eq hrun.memWf rfl rfl rfl rfl rfl rfl) ?_
    rw [State.phaseInv, State.setSeq_phase, State.uartSend_phase, hp]
    refine ⟨hinv.frame (.inr hp), ?_⟩
    change (s.seq.i + 1).toNat < s.res.txn.toNat
    bv_omega
  | txLast =>
    exact State.Running.inv_startReception (hrun.of_eq hrun.memWf rfl rfl rfl rfl rfl rfl)
  | settleWait hp ht =>
    obtain ⟨hmode, -, hsnap⟩ := hinv.settle hp
    refine State.Running.inv (hrun.of_eq hrun.memWf rfl rfl rfl rfl rfl rfl) ?_
    rw [State.phaseInv, State.setSeq_phase, hp]
    refine ⟨hmode, ?_, hsnap⟩
    change (s.seq.t + 1).toNat < s.regs.settle.toNat
    bv_omega
  | settleLast hp =>
    obtain ⟨hmode, -, hsnap⟩ := hinv.settle hp
    refine State.Running.inv (hrun.of_eq hrun.memWf rfl rfl rfl rfl rfl rfl) ⟨hmode, fun n hn => ?_⟩
    have hn : s.seq.snap = some n := hn
    rw [hsnap] at hn
    cases hn
  | sample hp hs hf =>
    obtain ⟨hmode, -⟩ := hinv.snap hp
    refine State.Running.inv (hrun.of_eq hrun.memWf rfl rfl rfl rfl rfl rfl) ?_
    rw [State.phaseInv, State.setSeq_phase, hp]
    refine ⟨hmode, fun n hn => ?_⟩
    cases hn
    have hpos := List.length_pos_iff.mpr hf
    have hcount : s.uartCount.toNat = min s.line.fifo.length 0xFFFF := by
      rw [State.uartCount, BitVec.toNat_ofNat]
      omega
    refine ⟨?_, ?_, State.received_zero _⟩
    · change 0 < s.uartCount.toNat
      omega
    · change s.uartCount.toNat ≤ 0 + s.line.fifo.length
      omega
  | sampleNone =>
    exact State.Running.inv_endOf (s := s.setRxn 0) (hrun.of_eq hrun.memWf rfl rfl rfl rfl rfl rfl) hi Reply.short_noReply
  | popNext n b rest hp hs hd hf hlt =>
    obtain ⟨hmode, hpop⟩ := hinv.snap hp
    obtain ⟨-, hlen, hrec⟩ := hpop n hs
    refine State.Running.inv (hrun.takeByte b rfl rfl rfl) ?_
    have hphase : (s.takeByte b { s.seq with i := s.seq.i + 1, dly := 0 }).phase = .snap := hp
    have hsucc : (s.seq.i + 1).toNat = s.seq.i.toNat + 1 := by bv_omega
    rw [State.phaseInv, hphase]
    refine ⟨hmode, fun n' hn' => ?_⟩
    have hn' : s.seq.snap = some n' := hn'
    rw [hs] at hn'
    cases hn'
    refine ⟨?_, ?_, ?_⟩
    · exact hsucc ▸ hlt
    · change n.toNat ≤ (s.seq.i + 1).toNat + s.line.fifo.tail.length
      rw [hf, List.length_cons] at hlen
      rw [hsucc, hf, List.tail_cons]
      omega
    · change State.received _ (s.seq.i + 1).toNat
      rw [hsucc]
      exact State.received_takeByte b _ hrec le_rfl
  | popLast n b rest hp hs hd hf hge =>
    obtain ⟨-, -, hrec⟩ := (hinv.snap hp).2 n hs
    have hpop : (s.takeByte b { s.seq with i := s.seq.i + 1, dly := 0 }).Running := hrun.takeByte b rfl rfl rfl
    exact hpop.inv_endReception hi (State.received_takeByte b _ hrec hge)
  | timeout hp =>
    obtain ⟨-, -, hrec⟩ := hinv.reasm hp
    exact hrun.inv_endReception hi hrec
  | reasmWait hp ht =>
    obtain ⟨hmode, -, hrec⟩ := hinv.reasm hp
    refine State.Running.inv (hrun.of_eq hrun.memWf rfl rfl rfl rfl rfl rfl) ?_
    rw [State.phaseInv, State.setSeq_phase, hp]
    refine ⟨hmode, ?_, hrec⟩
    change (s.seq.t + 1).toNat ≤ s.regs.timeout.toNat
    bv_omega
  | reasmMore b rest hp ht =>
    obtain ⟨hmode, -, hrec⟩ := hinv.reasm hp
    refine State.Running.inv (hrun.takeByte b rfl rfl rfl) ?_
    have hphase : (s.takeByte b { s.seq with i := satSucc s.seq.i, t := s.seq.t + 1 }).phase = .reasm := hp
    have hk := satSucc_toNat s.seq.i
    rw [State.phaseInv, hphase]
    refine ⟨hmode, ?_, State.received_takeByte b _ hrec (by change (satSucc s.seq.i).toNat ≤ _; omega)⟩
    change (s.seq.t + 1).toNat ≤ s.regs.timeout.toNat
    bv_omega
  | reasmWhole b rest hp ht =>
    obtain ⟨hmode, -, hrec⟩ := hinv.reasm hp
    have hk := satSucc_toNat s.seq.i
    have hpop : (s.reasmTaken b).Running := hrun.takeByte b rfl rfl rfl
    exact hpop.inv_endReception hi (State.received_takeByte b _ hrec (by omega))
  | parse hp =>
    have hready : (s.ready.setCsu (csuAfterDecode s.rxn.toNat (s.rxFrame s.rxn.toNat) s.csu)).Running :=
      hrun.of_eq hrun.memWf rfl rfl rfl rfl rfl rfl
    exact hready.inv_endOf hi (Reply.short_parse s s.rxn.toNat)

/-! ## The first step of a command, and SCAN's step -/

/-- A local instruction ends, and SCANN is not its own. -/
theorem localAct_ends {i : Instr} (hi : i.isLocal = true) (s : State) :
    (localAct i s).phase = .idle ∧ (localAct i s).stat.busy = false ∧ (localAct i s).res.scann = s.res.scann := by
  have hbuild (frame : Except ResultCode (List Byte)) : (State.buildAct frame s).phase = .idle ∧
      (State.buildAct frame s).stat.busy = false ∧ (State.buildAct frame s).res.scann = s.res.scann := by
    cases frame <;> exact ⟨rfl, rfl, rfl⟩
  cases i with
  | send | rdd | wrd | ping | scan => cases hi
  | enc | bld | insPing | insRead | insWrite | insRegWrite | insAction | insReset | insSyncWrite => exact hbuild _
  | chk =>
    rw [localAct, State.chkAct]
    split <;> exact ⟨rfl, rfl, rfl⟩
  | dec =>
    rw [localAct, State.decAct]
    dsimp only
    split <;> exact ⟨rfl, rfl, rfl⟩
  | pst =>
    rw [localAct, State.pstAct]
    cases parseStatus s.rxn.toNat (s.rxFrame s.rxn.toNat) <;> exact ⟨rfl, rfl, rfl⟩
  | openCh =>
    rw [localAct, State.openAct]
    split <;> exact ⟨rfl, rfl, rfl⟩
  | closeCh =>
    rw [localAct, State.closeAct]
    split <;> exact ⟨rfl, rfl, rfl⟩

/-- A frame of 6 to 259 bytes stands in TXB once it is loaded. -/
theorem State.frameReady_loadFrame (s : State) {f : List Byte} (h : 6 ≤ f.length ∧ f.length ≤ 259) :
    (s.loadFrame f).frameReady := by
  have htxn : (s.loadFrame f).res.txn.toNat = f.length := by
    rw [State.loadFrame_res, BitVec.toNat_ofNat]
    omega
  rw [State.frameReady, htxn]
  refine ⟨h.1, h.2, fun k hk => ?_⟩
  rw [storesAt_loadFrame, if_pos (by omega), Nat.add_sub_cancel_left, List.getElem?_eq_getElem hk]
  rfl

/-- The launch of a frame on an open channel. -/
theorem State.Running.inv_flush {s : State} (h : s.Running) {f : List Byte} (hf : 6 ≤ f.length ∧ f.length ≤ 259) :
    ((s.loadFrame f).enter .flush).Inv :=
  State.Running.inv (h.of_eq ((Keeps.loadFrame hf.2).wf h.memWf) rfl rfl rfl rfl rfl rfl) (s.frameReady_loadFrame hf)

/-- The build step of SEND, RDD, WRD and PING ends the command or launches its frame. -/
theorem inv_launchOrEnd {s : State} {frame : Except ResultCode (List Byte)} (hwf : Mem.Wf s.mem) (hb : s.stat.busy = true)
    (hd : s.stat.done = false) (hn : s.res.scann.toNat ≤ 254) (hc : channelCode s.seq.cmd) (hne : s.seq.cmd ≠ 0x0A)
    (hf : ∀ f, frame = .ok f → 6 ≤ f.length ∧ f.length ≤ 259) : (s.launchOrEnd frame).Inv := by
  cases frame with
  | error e => exact .of_idle hwf rfl rfl hn
  | ok f =>
    have hlen := hf f rfl
    rw [State.launchOrEnd, State.launch]
    split
    · rename_i ho
      exact State.Running.inv_flush ⟨⟨hwf, hb, hd, ho, hc, hn⟩, fun h => absurd h hne⟩ hlen
    · exact .of_idle ((Keeps.loadFrame hlen.2).wf hwf) rfl rfl hn

/-- SCAN's checks end it or start it at SCANLO. -/
theorem inv_scanStart {s : State} (hwf : Mem.Wf s.mem) (hb : s.stat.busy = true) (hd : s.stat.done = false)
    (hn : s.res.scann.toNat ≤ 254) (hc : s.seq.cmd = 0x0A) : s.scanStart.Inv := by
  rw [State.scanStart_eq]
  split_ifs with hhi ho hr
  · exact .of_idle hwf rfl rfl hn
  · exact .of_idle hwf rfl rfl hn
  · exact .of_idle ((Keeps.scanFinish (s.setSeq _)).wf hwf) rfl rfl (Nat.zero_le _)
  · refine State.Running.inv ⟨⟨hwf, hb, hd, by simpa using ho, ?_, hn⟩, fun _ => ⟨?_, ?_, ?_⟩⟩ hc
    · exact hc ▸ channelCode_scan
    · exact Nat.le_of_eq (Nat.zero_add _)
    · exact Nat.le_of_not_lt hr
    · exact Nat.le_of_not_lt hhi

/-- The launch of a ping, or, if it is refused, the next id. -/
theorem State.Running.inv_scanLaunch {s : State} (h : s.Running) (hc : s.seq.cmd = 0x0A) : s.scanLaunch.Inv := by
  obtain ⟨hm, hid, hhi⟩ := h.scan hc
  have hrange : s.scanRange 1 := ⟨by omega, hid, hhi⟩
  rw [State.scanLaunch]
  cases hf : s.pingFrame s.seq.scanId with
  | error e => exact h.toOnChannel.inv_scanNext hc hrange
  | ok f =>
    rw [State.launch, if_pos h.opened]
    exact h.inv_flush (build_length hf)

/-! ## One cycle -/

/-- The first step's entry is a write of PINGOK. -/
theorem State.Inv.buildEntry {s : State} (h : s.Inv) (i : Instr) : (buildEntry i s).Inv := by
  unfold Machine.buildEntry
  split
  · exact ⟨h.memWf, h.notBoth, h.idleIff, h.launched, h.scanStep, h.frame, h.txIndex, h.settle, h.snap, h.reasm, h.parse,
      h.scan, h.scann⟩
  · exact h

/-- An instruction's cycle keeps the invariant, where the latched code is the instruction's. -/
theorem State.Inv.exec {i : Instr} {s t : State} (hinv : s.Inv) (hi : RunsAs i s.seq.cmd) (h : exec i s = .next t) :
    t.Inv := by
  cases Cycle.of_exec h with
  | localWait | scanWait => exact hinv.setDly _
  | localEnd hl _ =>
    obtain ⟨hp, hb, hn⟩ := localAct_ends hl s.ready
    exact .of_idle ((Keeps.localAct hl s.ready).wf hinv.memWf) hp hb (hn ▸ hinv.scann)
  | buildWait => exact (hinv.buildEntry i).setDly _
  | buildEnd hch hend =>
    have hu := (hinv.buildEntry i).setDly 0
    have hb := hu.busy (by rw [State.setSeq_phase, buildEntry_phase, hend.1]; decide)
    have hcmd : ((Machine.buildEntry i s).setSeq { (Machine.buildEntry i s).seq with dly := 0 }).seq.cmd = s.seq.cmd :=
      (Keeps.buildEntry i s).cmd
    rw [Machine.buildEnd]
    split
    · rename_i hscan
      exact inv_scanStart hu.memWf hb (hu.notBoth hb) hu.scann (hcmd.trans (hi.2.mp hscan))
    · rename_i hscan
      exact inv_launchOrEnd hu.memWf hb (hu.notBoth hb) hu.scann (hcmd.symm ▸ hi.1.mp hch)
        (fun hc => hscan (hi.2.mpr (hcmd.symm.trans hc))) fun _ hf => launchFrame_length hf
  | scanLaunch hscan hp =>
    have hrun := (hinv.setDly 0).running (.inr hp)
    exact hrun.inv_scanLaunch (hi.2.mp hscan)
  | exchange _ _ hx h => exact hinv.exchange hx hi h

/-- An illegal command's cycle keeps the invariant. -/
theorem State.Inv.illegalCycle {s t : State} (hinv : s.Inv) (h : s.illegalCycle = .next t) : t.Inv := by
  obtain ⟨-, rfl⟩ := State.localCycle_cases h
  rcases s.afterDelay_cases s.params.latLocal (fun t => t.finish .badCommand) with ⟨-, e⟩ | ⟨-, e⟩ <;> rw [e]
  · exact hinv.setDly _
  · exact .of_idle hinv.memWf rfl rfl hinv.scann

/-- The bytes that arrive at the end of a cycle only add to the FIFO. -/
theorem State.Inv.endCycle {s : State} (h : s.Inv) : s.endCycle.Inv := by
  refine ⟨h.memWf, h.notBoth, h.idleIff, h.launched, h.scanStep, h.frame, h.txIndex, h.settle, fun hp => ?_, h.reasm,
    h.parse, h.scan, h.scann⟩
  obtain ⟨hmode, hpop⟩ := h.snap hp
  refine ⟨hmode, fun n hn => ?_⟩
  obtain ⟨hlt, hlen, hrec⟩ := hpop n hn
  refine ⟨hlt, ?_, hrec⟩
  rw [State.endCycle_line, List.length_append]
  exact hlen.trans (by simp)

/-- While a command runs the host reaches nothing that the invariant speaks of but DONE, which it only clears. -/
theorem State.Inv.front_busy {s : State} (h : s.Inv) (hb : s.stat.busy = true) : s.front.Inv := by
  obtain ⟨c, d, o, r, hf⟩ := State.front_busy hb
  rw [hf]
  refine ⟨h.memWf, fun _ => ?_, h.idleIff, h.launched, h.scanStep, h.frame, h.txIndex, h.settle, h.snap, h.reasm,
    h.parse, h.scan, h.scann⟩
  change (s.stat.done && d) = false
  rw [h.notBoth hb, Bool.false_and]

/-- A write in IDLE to any place but CMD leaves the phase, BUSY and the results as they are. -/
theorem State.writeLoc_idle (s : State) {a : Nat} (d : Byte) (hcmd : locate a ≠ .cmd) :
    (s.writeLoc a d (locate a)).phase = s.phase ∧ (s.writeLoc a d (locate a)).stat.busy = s.stat.busy ∧
    (s.writeLoc a d (locate a)).res = s.res ∧ (Mem.Wf s.mem → Mem.Wf (s.writeLoc a d (locate a)).mem) := by
  cases hl : locate a with
  | cmd => exact absurd hl hcmd
  | entry b =>
    have hwf : Mem.Wf s.mem → Mem.Wf (Mem.write s.mem a d) := fun h => Mem.wf_write h (locate_entry hl)
    cases b with
    | pb | rxb => exact ⟨rfl, rfl, rfl, hwf⟩
    | qb | scanlist | txb => exact ⟨rfl, rfl, rfl, id⟩
  | ctrl | stat | rc | id | opc | pn _ | addr | rlen | csum | rid | rerr | qn => exact ⟨rfl, rfl, rfl, fun h => h⟩
  | scanlo | scanhi | scann | phase | txn _ | rxn _ => exact ⟨rfl, rfl, rfl, fun h => h⟩
  | settle _ | timeout _ | baud _ | reserved => exact ⟨rfl, rfl, rfl, fun h => h⟩

theorem State.Inv.writeLoc_idle {s : State} (h : s.Inv) (hb : s.stat.busy = false) (a : Nat) (d : Byte) :
    (s.writeLoc a d (locate a)).Inv := by
  by_cases hcmd : locate a = .cmd
  · rw [hcmd]
    exact .of_localCmd h.memWf rfl rfl rfl h.scann
  · obtain ⟨hp, hbusy, hres, hwf⟩ := s.writeLoc_idle d hcmd
    exact .of_idle (hwf h.memWf) (hp.trans (h.idleIff.mpr hb)) (hbusy.trans hb) (by rw [hres]; exact h.scann)

/-- In IDLE the host's access keeps the invariant; a write of CMD starts a command in LOCAL. -/
theorem State.Inv.front_idle {s : State} (h : s.Inv) (hb : s.stat.busy = false) : s.front.Inv := by
  have hbegin : s.beginCycle.Inv := .of_idle h.memWf (h.idleIff.mpr hb) hb h.scann
  rw [State.front, State.hostAccess]
  split
  · exact hbegin
  · exact .of_idle h.memWf (h.idleIff.mpr hb) hb h.scann
  · rename_i a d _
    rw [State.busWrite, if_neg (by simp [hb])]
    exact hbegin.writeLoc_idle hb _ d

/-- Settles O57: at reset the block is IDLE, nothing is listed in the buffers and SCANN is 0. -/
theorem resetStateMeetsTheInvariant : Obligations.ResetStateMeetsTheInvariant :=
  .of_idle Mem.wf_nil rfl rfl (Nat.zero_le _)

theorem State.resetEdge_inv (s : State) : s.resetEdge.Inv := .of_idle Mem.wf_nil rfl rfl (Nat.zero_le _)

/-- What a running command sees of the latched code and of the parameters. -/
theorem State.front_unit {s : State} (hb : s.stat.busy = true) : s.front.params = s.params ∧ s.front.seq = s.seq := by
  obtain ⟨c, d, o, r, hf⟩ := State.front_busy hb
  rw [hf]
  exact ⟨rfl, rfl⟩

/-- Settles O56: a reset edge, a cycle of IDLE, or a cycle of the command that the latched code stands for. -/
theorem stepKeepsTheInvariant : Obligations.StepKeepsTheInvariant := by
  intro s t hinv hstep
  rcases step_cases hstep with ⟨-, rfl⟩ | ⟨-, hb, rfl⟩ | ⟨-, hb, u, hu, rfl⟩
  · exact s.resetEdge_inv.endCycle
  · exact (hinv.front_idle hb).endCycle
  · obtain ⟨-, hseq⟩ := State.front_unit hb
    rcases runCommand_cases s.fetch s.front with ⟨i, hdec, e⟩ | ⟨-, -, e⟩ <;> rw [e] at hu
    · have hi : RunsAs i s.front.seq.cmd := by
        rw [hseq]
        exact runsAs_of_decode hdec
      exact ((hinv.front_busy hb).exec hi hu).endCycle
    · exact ((hinv.front_busy hb).illegalCycle hu).endCycle

/-! ## No stop -/

/-- In a phase of the exchange the invariant names a next state: a counted byte is in the FIFO (rule R193). -/
theorem State.Inv.exchange_next {s : State} (h : s.Inv) (hx : s.phase.exchange = true) (fin : Reply → State → State) :
    ∃ t, Exchange fin s t := by
  cases hp : s.phase with
  | idle | localCmd | scanStep => rw [hp] at hx; cases hx
  | flush => exact (lt_or_ge _ _).elim (fun hd => ⟨_, .flushWait hp hd⟩) (fun hd => ⟨_, .flush hp hd⟩)
  | tx => exact ⟨_, .of_txCycle hp⟩
  | settle => exact ⟨_, .of_settleCycle hp⟩
  | reasm => exact ⟨_, .of_reasmCycle hp⟩
  | parse => exact (lt_or_ge _ _).elim (fun hd => ⟨_, .parseWait hp hd⟩) (fun hd => ⟨_, .parse hp hd⟩)
  | snap =>
    cases hs : s.seq.snap with
    | none =>
      by_cases hf : s.line.fifo = []
      · exact ⟨_, .sampleNone hp hs hf⟩
      · exact ⟨_, .sample hp hs hf⟩
    | some n =>
      obtain ⟨hlt, hlen, -⟩ := (h.snap hp).2 n hs
      rcases lt_or_ge (s.seq.dly + 1) s.params.popCycles with hd | hd
      · exact ⟨_, .popWait n hp hs hd⟩
      · cases hf : s.line.fifo with
        | nil => rw [hf, List.length_nil] at hlen; omega
        | cons b rest =>
          rcases lt_or_ge (s.seq.i.toNat + 1) n.toNat with hi | hi
          · exact ⟨_, .popNext n b rest hp hs hd hf hi⟩
          · exact ⟨_, .popLast n b rest hp hs hd hf hi⟩

/-- The running instruction has a next state in every phase that the invariant allows it. -/
theorem State.Inv.exec_next {i : Instr} {s : State} (h : s.Inv) (hb : s.stat.busy = true) (hi : RunsAs i s.seq.cmd) :
    ∃ t, Machine.exec i s = .next t := by
  by_cases hx : s.phase.exchange = true
  · obtain ⟨t, ht⟩ := h.exchange_next hx (endOf i)
    exact ⟨t, exec_of_exchange (hi.1.mpr (h.launched hx).2) hx ht⟩
  · cases hp : s.phase with
    | idle => rw [h.idleIff.mp hp] at hb; cases hb
    | localCmd =>
      rcases isLocal_or_channel i with ⟨hl, -⟩ | ⟨-, hch⟩
      · exact ⟨_, (exec_local hl s).trans (State.localCycle_eq _ hp)⟩
      · exact ⟨_, exec_build hch hp⟩
    | scanStep =>
      have hscan : i = .scan := hi.2.mpr (h.scanStep hp).2
      subst hscan
      exact ⟨_, exec_scanStep hp⟩
    | flush | tx | settle | snap | reasm | parse => rw [hp] at hx; exact absurd rfl hx

/-- An illegal code stands in LOCAL alone: the later phases are the channel commands'. -/
theorem State.Inv.illegal_next {s : State} (h : s.Inv) (hb : s.stat.busy = true) {p : Params} {o : Byte} {e : DecodeError}
    (he : decode p [s.seq.cmd, o] = .error e) : ∃ t, s.illegalCycle = .next t := by
  have hcode : ¬ channelCode s.seq.cmd := fun hc => by
    obtain ⟨i, hi⟩ := decode_ok_of_channelCode (p := p) (o := o) hc
    rw [he] at hi
    cases hi
  cases hp : s.phase with
  | idle => rw [h.idleIff.mp hp] at hb; cases hb
  | localCmd => exact ⟨_, State.localCycle_eq _ hp⟩
  | scanStep => exact absurd ((h.scanStep hp).2 ▸ channelCode_scan) hcode
  | flush | tx | settle | snap | reasm | parse => exact absurd (h.launched (by rw [hp]; rfl)).2 hcode

/-- Settles O58: the invariant of the state that the cycle starts in names the next state. -/
theorem invariantRulesOutEveryStop : Obligations.InvariantRulesOutEveryStop := by
  intro s hinv
  cases hr : s.now.rst with
  | true => exact ⟨_, step_reset hr⟩
  | false =>
    cases hb : s.stat.busy with
    | false => exact ⟨_, step_idle hr hb⟩
    | true =>
      have hfront := hinv.front_busy hb
      obtain ⟨-, hseq⟩ := State.front_unit hb
      have hbusy : s.front.stat.busy = true := by
        obtain ⟨c, d, o, r, hf⟩ := State.front_busy hb
        rw [hf]
        exact hb
      have hnext : ∃ u, runCommand s.fetch s.front = .next u := by
        rcases runCommand_cases s.fetch s.front with ⟨i, hdec, e⟩ | ⟨er, herr, e⟩ <;> rw [e]
        · exact hfront.exec_next hbusy (hseq ▸ runsAs_of_decode hdec)
        · refine hfront.illegal_next hbusy (p := s.front.params) (o := s.regs.opc) (e := er) ?_
          rw [hseq]
          exact herr
      obtain ⟨u, hu⟩ := hnext
      rw [step_busy hr hb, hu]
      exact ⟨_, rfl⟩

end Sys2Proof.Machine

/-! PROOF. The whole step (rules R20, R79, R102, R290), the end and the acceptance of a command (rules R23, R262), and the values of
the registers' bytes (rules R24 to R30, R44, R260). -/

namespace Sys2Proof.Machine

/-! ## The end and the acceptance of a command -/

/-- Settles O20: the definition of the end, field by field. -/
theorem commandEndWritesResultAndHandshake : Obligations.CommandEndWritesResultAndHandshake := fun _ _ => rfl

/-- The command port takes a write in IDLE (rules R23, R77). -/
theorem State.busWrite_idle {s : State} (hb : s.stat.busy = false) (a : Addr) (d : Byte) :
    s.busWrite a d = s.writeLoc a.toNat d (locate a.toNat) := by
  rw [State.busWrite, if_neg (by simp [hb])]

/-- Settles O50: address 0x000 is the command port. -/
theorem writingCmdAcceptsTheCommand : Obligations.WritingCmdAcceptsTheCommand :=
  fun _ _ hb => State.busWrite_idle hb _ _

/-! ## The values of the tables -/

/-- The bits of CTRL (rule R24). -/
theorem Ctrl.byte_toNat (c : Ctrl) : c.byte.toNat = c.ie.toNat + 2 * c.rxmode.toNat := by
  obtain ⟨ie, rxmode⟩ := c
  revert ie rxmode
  decide

/-- The bits of STAT (rules R25 to R30). -/
theorem Stat.byte_toNat (st : Stat) : st.byte.toNat =
    st.busy.toNat + 2 * st.done.toNat + 4 * st.opened.toNat + 8 * st.ovr.toNat + 16 * st.pingok.toNat := by
  obtain ⟨busy, done, opened, ovr, pingok⟩ := st
  revert busy done opened ovr pingok
  decide

/-- Settles O59: the codes and phases are table entries, and a register's byte is a sum over its flags. -/
theorem registerValuesOfTheTables : Obligations.RegisterValuesOfTheTables :=
  ⟨⟨rfl, rfl, rfl, rfl, rfl, rfl, rfl, rfl, rfl, rfl, rfl, rfl, rfl, rfl, rfl, rfl, rfl, rfl, rfl, rfl, rfl, rfl, rfl, rfl⟩,
    ⟨rfl, rfl, rfl, rfl, rfl, rfl, rfl, rfl, rfl⟩, Ctrl.byte_toNat, Stat.byte_toNat⟩

/-! ## The step -/

/-- Settles O55: a reset edge sets every register, and the end of its cycle lets the bytes arrive. -/
theorem resetEdgeGivesTheResetState : Obligations.ResetEdgeGivesTheResetState := by
  intro s hr
  exact ⟨s.resetEdge.endCycle, step_reset hr, rfl, rfl, rfl, rfl, rfl, rfl, rfl, fun _ => rfl, rfl, rfl, rfl, rfl, rfl, rfl,
    rfl, rfl, rfl, rfl⟩

/-- A step of a running command is its instruction's cycle (rules R20, R95). -/
theorem step_exec {s : State} {i : Instr} (hr : s.now.rst = false) (hb : s.stat.busy = true)
    (hd : decode s.params s.fetch = .ok i) : step s = onNext State.endCycle (exec i s.front) := by
  rw [step_busy hr hb, runCommand, (State.front_unit hb).1, hd]

theorem locate_cmd_iff (a : Nat) : locate a = .cmd ↔ a = 0x000 := by
  by_cases ha : a < 0x100
  · have hregs : ∀ a < 0x100, locate a = .cmd ↔ a = 0x000 := by decide +kernel
    exact hregs a ha
  · rw [locate_high (by omega)]
    split_ifs <;> simp only [false_iff] <;> omega

/-- `t` keeps what no host access in IDLE reaches: RC, the results, OPEN, PINGOK, the checksum unit, the strobes and the UART side. -/
structure HostKeeps (s t : State) : Prop where
  rc     : t.rc = s.rc
  opened : t.stat.opened = s.stat.opened
  pingok : t.stat.pingok = s.stat.pingok
  res    : t.res = s.res
  csu    : t.csu = s.csu
  pins   : t.pins = s.pins
  line   : t.line = s.line
  script : t.script = s.script
  late   : t.lateReady = s.lateReady

theorem HostKeeps.writeLoc (s : State) (a : Nat) (d : Byte) (l : Loc) : HostKeeps s (s.writeLoc a d l) := by
  cases l with
  | entry b => cases b <;> exact ⟨rfl, rfl, rfl, rfl, rfl, rfl, rfl, rfl, rfl⟩
  | cmd | ctrl | stat | rc | id | opc | pn _ | addr | rlen | csum | rid | rerr | qn | scanlo | scanhi =>
    exact ⟨rfl, rfl, rfl, rfl, rfl, rfl, rfl, rfl, rfl⟩
  | scann | phase | txn _ | rxn _ | settle _ | timeout _ | baud _ | reserved =>
    exact ⟨rfl, rfl, rfl, rfl, rfl, rfl, rfl, rfl, rfl⟩

/-- A write of any place but CMD in IDLE starts nothing. -/
theorem State.writeLoc_seq (s : State) {a : Nat} (d : Byte) (hcmd : locate a ≠ .cmd) :
    (s.writeLoc a d (locate a)).seq = s.seq := by
  cases hl : locate a with
  | cmd => exact absurd hl hcmd
  | entry b => cases b <;> rfl
  | ctrl | stat | rc | id | opc | pn _ | addr | rlen | csum | rid | rerr | qn | scanlo | scanhi => rfl
  | scann | phase | txn _ | rxn _ | settle _ | timeout _ | baud _ | reserved => rfl

/-! The start of a cycle, by the host's access in it (rule R79). -/

theorem State.front_none {s : State} (h : s.now.host = none) : s.front = s.beginCycle := by
  rw [State.front, State.hostAccess, State.beginCycle_now, h]

theorem State.front_rd {s : State} {a : Addr} (h : s.now.host = some (.rd a)) :
    s.front = s.beginCycle.setRdata (some (s.beginCycle.busRead a)) := by
  rw [State.front, State.hostAccess, State.beginCycle_now, h]

theorem State.front_wr {s : State} {a : Addr} {d : Byte} (h : s.now.host = some (.wr a d)) :
    s.front = s.beginCycle.busWrite a d := by
  rw [State.front, State.hostAccess, State.beginCycle_now, h]

/-- The host's access of a cycle of IDLE: no access, a read, an acceptance, or a write of another place. -/
theorem State.front_idle_cases {s : State} (hb : s.stat.busy = false) :
    HostKeeps s.beginCycle s.front ∧
    (∀ c, s.now.host = some (.wr 0x000 c) → s.front = s.beginCycle.accept c) ∧
    ((∀ c, s.now.host ≠ some (.wr 0x000 c)) →
      s.front.stat.busy = false ∧ s.front.phase = s.phase ∧ s.front.seq = s.seq) := by
  have hquiet : HostKeeps s.beginCycle s.beginCycle := ⟨rfl, rfl, rfl, rfl, rfl, rfl, rfl, rfl, rfl⟩
  cases hh : s.now.host with
  | none =>
    rw [State.front_none hh]
    exact ⟨hquiet, fun _ h => (nomatch h), fun _ => ⟨hb, rfl, rfl⟩⟩
  | some op =>
    cases op with
    | rd a =>
      rw [State.front_rd hh]
      exact ⟨⟨rfl, rfl, rfl, rfl, rfl, rfl, rfl, rfl, rfl⟩, fun _ h => (nomatch h), fun _ => ⟨hb, rfl, rfl⟩⟩
    | wr a d =>
      rw [State.front_wr hh, State.busWrite_idle (s := s.beginCycle) hb]
      refine ⟨HostKeeps.writeLoc _ _ _ _, fun c hc => by cases hc; rfl, fun hne => ?_⟩
      have hcmd : locate a.toNat ≠ .cmd := fun hl => by
        have ha : a = 0x000 := BitVec.eq_of_toNat_eq ((locate_cmd_iff _).mp hl)
        exact hne d (by rw [ha])
      obtain ⟨hp, hbusy, -, -⟩ := s.beginCycle.writeLoc_idle d hcmd
      exact ⟨hbusy.trans hb, hp, s.beginCycle.writeLoc_seq d hcmd⟩

/-- Settles O44: the step unfolds to the command's cycle or to the host's access; the frame is that of the access. -/
theorem stepRunsTheDecodedInstruction : Obligations.StepRunsTheDecodedInstruction := by
  refine ⟨fun s i => step_exec, fun s hr hb => ?_⟩
  have hstep := step_idle hr hb
  obtain ⟨hk, haccept, hother⟩ := State.front_idle_cases hb
  have hnow : s.front.now = s.now := by
    rw [State.now, hk.script, hk.late]
    rfl
  refine ⟨fun hh => State.front_none hh ▸ hstep, fun a hh => State.front_rd hh ▸ hstep,
    fun a d hh => State.front_wr hh ▸ hstep, s.front.endCycle, hstep, fun c hh => ?_, hother, hk.rc, hk.opened, hk.pingok,
    hk.res, hk.csu, hk.pins, ?_, ?_⟩
  · rw [haccept c hh]
    exact ⟨rfl, rfl, rfl⟩
  · rw [State.endCycle_line, hk.line]
    rfl
  · rw [State.endCycle_line, hk.line, hnow]
    rfl

/-- Settles O45: the illegal command's last cycle, on the state with the host's access made. -/
theorem illegalCommandEndsWithBadCommand : Obligations.IllegalCommandEndsWithBadCommand := by
  intro s hr hb h hc
  have hfront : s.front.atLocalEnd := by
    obtain ⟨c, d, o, r, hf⟩ := State.front_busy hb
    rw [hf]
    exact h
  have hdec : decode s.front.params s.fetch = .error (.illegalCommand s.seq.cmd) := decode_of_none _ hc
  rw [step_busy hr hb, runCommand, hdec]
  dsimp only
  rw [State.illegalCycle, State.localCycle_last _ hfront]
  rfl

end Sys2Proof.Machine

/-! PROOF. The host's reads and its writes in IDLE (rules R71 to R78). -/

namespace Sys2Proof.Machine

/-! ## Bytes of wide registers -/

/-- Byte `k` of a wide register as a number (rule R74). -/
theorem byteOf_eq {w : Nat} (v : BitVec w) (k : Nat) : byteOf v k = BitVec.ofNat 8 (v.toNat / 256 ^ k) := by
  apply BitVec.eq_of_toNat_eq
  rw [byteOf, BitVec.extractLsb'_toNat, Nat.shiftRight_eq_div_pow, Nat.pow_mul, BitVec.toNat_ofNat]

theorem byteOf_getLsbD {w : Nat} (v : BitVec w) (k : Nat) {j : Nat} (hj : j < 8) :
    (byteOf v k).getLsbD j = v.getLsbD (8 * k + j) := by
  rw [byteOf, BitVec.getLsbD_extractLsb', decide_eq_true hj, Bool.true_and]

/-- A bit of a register with byte `k` replaced: the byte's, where it is one of byte `k`'s, and else the old one. -/
theorem withByte_getLsbD {w : Nat} (v : BitVec w) (k : Nat) (b : Byte) {i : Nat} (hi : i < w) :
    (withByte v k b).getLsbD i = if 8 * k ≤ i ∧ i < 8 * k + 8 then b.getLsbD (i - 8 * k) else v.getLsbD i := by
  have hmask : ((BitVec.ofNat w 255) <<< (8 * k)).getLsbD i = decide (8 * k ≤ i ∧ i < 8 * k + 8) := by
    rw [BitVec.getLsbD_shiftLeft, BitVec.getLsbD_ofNat, show 255 = 2 ^ 8 - 1 from rfl, Nat.testBit_two_pow_sub_one,
      Bool.eq_iff_iff]
    simp only [Bool.and_eq_true, Bool.not_eq_true', decide_eq_true_eq, decide_eq_false_iff_not]
    omega
  have hbyte : ((b.setWidth w) <<< (8 * k)).getLsbD i = (decide (8 * k ≤ i) && b.getLsbD (i - 8 * k)) := by
    rw [BitVec.getLsbD_shiftLeft, BitVec.getLsbD_setWidth, decide_eq_true hi,
      decide_eq_true (show i - 8 * k < w by omega), Bool.true_and, Bool.true_and, ← decide_not]
    exact congrArg (· && _) (decide_eq_decide.mpr Nat.not_lt)
  rw [withByte, BitVec.getLsbD_or, BitVec.getLsbD_and, BitVec.getLsbD_not, hmask, hbyte, decide_eq_true hi]
  split_ifs with hin
  · simp [hin.1, hin]
  · have hout : 8 * k ≤ i → b.getLsbD (i - 8 * k) = false := fun hle => BitVec.getLsbD_of_ge _ _ (by omega)
    by_cases hle : 8 * k ≤ i
    · simp [hin, hout hle]
    · simp [hle]

/-- A replaced byte reads back (rule R74). -/
theorem byteOf_withByte_same {w : Nat} (v : BitVec w) {k : Nat} (b : Byte) (hk : 8 * k + 8 ≤ w) :
    byteOf (withByte v k b) k = b := by
  refine BitVec.eq_of_getLsbD_eq fun j hj => ?_
  rw [byteOf_getLsbD _ _ hj, withByte_getLsbD _ _ _ (by omega), if_pos (by omega), Nat.add_sub_cancel_left]

/-- The other bytes of the register are as before (rule R74). -/
theorem byteOf_withByte_ne {w : Nat} (v : BitVec w) {k k' : Nat} (b : Byte) (hk : k' ≠ k) :
    byteOf (withByte v k b) k' = byteOf v k' := by
  refine BitVec.eq_of_getLsbD_eq fun j hj => ?_
  rw [byteOf_getLsbD _ _ hj, byteOf_getLsbD _ _ hj]
  by_cases hi : 8 * k' + j < w
  · rw [withByte_getLsbD _ _ _ hi, if_neg (by omega)]
  · rw [BitVec.getLsbD_of_ge _ _ (by omega), BitVec.getLsbD_of_ge _ _ (by omega)]

/-! ## The map -/

/-- The addresses of rule R78 are those of the places it hides. -/
theorem locate_hidden_iff (a : Nat) : (locate a).hiddenWhileBusy = true ↔ hiddenAddr a := by
  by_cases ha : a < 0x100
  · have hregs : ∀ a < 0x100, (locate a).hiddenWhileBusy = true ↔ hiddenAddr a := by
      unfold hiddenAddr
      decide +kernel
    exact hregs a ha
  · rw [locate_high (by omega)]
    unfold hiddenAddr
    split_ifs <;> simp only [Loc.hiddenWhileBusy, true_iff, Bool.false_eq_true, false_iff] <;> omega

theorem locate_reserved_iff (a : Nat) : locate a = .reserved ↔ reservedAddr a := by
  by_cases ha : a < 0x100
  · have hregs : ∀ a < 0x100, locate a = .reserved ↔ reservedAddr a := by
      unfold reservedAddr
      decide +kernel
    exact hregs a ha
  · rw [locate_high (by omega)]
    unfold reservedAddr
    split_ifs <;> simp only [true_iff, false_iff] <;> omega

/-- Every buffer address holds an entry (rule R71). -/
theorem locate_of_bufferAddr {a : Nat} (h : bufferAddr a = true) : ∃ b, locate a = .entry b := by
  rw [bufferAddr_iff] at h
  rw [locate_high (by omega)]
  split_ifs with h1 h2 h3 h4 h5 h6
  · exact ⟨_, rfl⟩
  · exact ⟨_, rfl⟩
  · exact ⟨_, rfl⟩
  · exact ⟨_, rfl⟩
  · omega
  · exact ⟨_, rfl⟩
  · omega

/-- The address of a register's byte, the inverse of the map below 0x100 (`place_locate`). -/
def Loc.place : Loc → Nat
  | .cmd => 0x000 | .ctrl => 0x001 | .stat => 0x002 | .rc => 0x003 | .id => 0x004 | .opc => 0x005
  | .pn k => 0x006 + k
  | .addr => 0x008 | .rlen => 0x009 | .csum => 0x00A | .rid => 0x00B | .rerr => 0x00C | .qn => 0x00D
  | .scanlo => 0x00E | .scanhi => 0x00F | .scann => 0x010 | .phase => 0x011
  | .txn k => 0x012 + k
  | .rxn k => 0x014 + k
  | .settle k => 0x018 + k
  | .timeout k => 0x01C + k
  | .baud k => 0x020 + k
  | .entry _ | .reserved => 0

/-- The byte number is one of the register's (rule R22). -/
def Loc.inRegister : Loc → Bool
  | .pn k | .txn k | .rxn k => decide (k < 2)
  | .settle k | .timeout k | .baud k => decide (k < 4)
  | .cmd | .ctrl | .stat | .rc | .id | .opc | .addr | .rlen | .csum | .rid | .rerr | .qn | .scanlo | .scanhi | .scann
  | .phase | .entry _ | .reserved => true

/-- A register's byte stands at one address, with a byte number inside the register (rule R71). -/
theorem place_locate (a : Nat) :
    (locate a).inRegister = true ∧ ((locate a).place = a ∨ locate a = .reserved ∨ ∃ b, locate a = .entry b) := by
  by_cases ha : a < 0x100
  · have hregs : ∀ a < 0x100, (locate a).inRegister = true ∧ ((locate a).place = a ∨ locate a = .reserved) := by
      decide +kernel
    obtain ⟨h1, h2⟩ := hregs a ha
    exact ⟨h1, h2.imp_right .inl⟩
  · rw [locate_high (by omega)]
    split_ifs
    · exact ⟨rfl, .inr (.inr ⟨_, rfl⟩)⟩
    · exact ⟨rfl, .inr (.inr ⟨_, rfl⟩)⟩
    · exact ⟨rfl, .inr (.inr ⟨_, rfl⟩)⟩
    · exact ⟨rfl, .inr (.inr ⟨_, rfl⟩)⟩
    · exact ⟨rfl, .inr (.inl rfl)⟩
    · exact ⟨rfl, .inr (.inr ⟨_, rfl⟩)⟩
    · exact ⟨rfl, .inr (.inl rfl)⟩

/-- Two addresses of one register byte are one address. -/
theorem locate_ne {a a' : Nat} (h : a' ≠ a) (hres : locate a ≠ .reserved) (hentry : ∀ b, locate a ≠ .entry b) :
    locate a' ≠ locate a := by
  intro heq
  have hp := (place_locate a).2.resolve_right fun hr => hr.elim hres fun ⟨b, hb⟩ => hentry b hb
  have hp' := (place_locate a').2.resolve_right fun hr =>
    hr.elim (fun hr => hres (heq ▸ hr)) fun ⟨b, hb⟩ => hentry b (heq ▸ hb)
  rw [heq, hp] at hp'
  exact h hp'.symm

/-! ## Reads -/

/-- A read that rule R78 does not leave open gives the byte of its place. -/
theorem State.busRead_eq {s : State} {a : Addr} (h : s.stat.busy = false ∨ ¬ hiddenAddr a.toNat) :
    s.busRead a = s.readLoc a.toNat (locate a.toNat) := by
  rw [State.busRead, if_neg]
  rw [Bool.and_eq_true, locate_hidden_iff]
  exact fun hand => h.elim (fun hb => by rw [hb] at hand; cases hand.1) fun hn => hn hand.2

/-- The registers' bytes stand in the order of their addresses (rules R71, R74). -/
theorem State.readLoc_registerFile (s : State) {a : Nat} (ha : a < 0x24) :
    some (s.readLoc a (locate a)) = (registerFile s)[a]? := by
  simp only [registerFile, ← byteOf_eq]
  interval_cases a <;> rfl

/-- Settles O52: the byte on the bus is the byte of the address's place. -/
theorem hostReadsTheRegisterMap : Obligations.HostReadsTheRegisterMap := by
  intro s a hh
  refine ⟨s.busRead a, by rw [State.hostAccess, hh], fun hopen => ?_⟩
  rw [State.busRead_eq hopen]
  refine ⟨fun ha => s.readLoc_registerFile ha, fun hres => ?_, fun b hbuf hb => ?_⟩
  · rw [(locate_reserved_iff _).mpr hres, State.readLoc]
  · obtain ⟨e, he⟩ := locate_of_bufferAddr hbuf
    rw [he, State.readLoc]
    exact State.peek_of_read hb

/-! ## Writes in IDLE -/

/-- An RW place other than CTRL reads back (rules R72, R74, R76). -/
theorem State.readLoc_writeLoc_same (s : State) (a : Nat) (d : Byte) {l : Loc} (hlock : l.locked = true) (hcmd : l ≠ .cmd)
    (hin : l.inRegister = true) : (s.writeLoc a d l).readLoc a l = d := by
  cases l with
  | cmd => exact absurd rfl hcmd
  | id | opc | addr | rlen | scanlo | scanhi => rfl
  | pn k | rxn k =>
    have hk := of_decide_eq_true hin
    exact byteOf_withByte_same _ d (by omega)
  | settle k | timeout k | baud k =>
    have hk := of_decide_eq_true hin
    exact byteOf_withByte_same _ d (by omega)
  | entry b =>
    cases b with
    | pb | rxb => exact State.peek_of_read (by rw [State.writeLoc, State.setMem_mem, Mem.read_write, if_pos rfl])
    | qb | scanlist | txb => cases hlock
  | ctrl | stat | rc | csum | rid | rerr | qn | scann | phase | txn _ | reserved => cases hlock

/-- A write of a register's byte changes the read of no other place. -/
theorem State.readLoc_writeLoc_register (s : State) (a a' : Nat) (d : Byte) {l l' : Loc} (hne : l' ≠ l) (hcmd : l ≠ .cmd)
    (hstat : l ≠ .stat) (hentry : ∀ b, l ≠ .entry b) : (s.writeLoc a d l).readLoc a' l' = s.readLoc a' l' := by
  cases l with
  | cmd => exact absurd rfl hcmd
  | stat => exact absurd rfl hstat
  | entry b => exact absurd rfl (hentry b)
  | rc | csum | rid | rerr | qn | scann | phase | txn _ | reserved => rfl
  | ctrl | id | opc | addr | rlen | scanlo | scanhi => cases l' <;> first | rfl | exact absurd rfl hne
  | pn k | rxn k | settle k | timeout k | baud k =>
    cases l' <;> first | rfl | exact byteOf_withByte_ne _ d fun he => hne (he ▸ rfl)

/-- A write of a buffer entry changes the read of no other address. -/
theorem State.readLoc_writeMem (s : State) {a a' : Nat} (d : Byte) (l' : Loc) (hne : a' ≠ a) :
    (s.setMem (Mem.write s.mem a d)).readLoc a' l' = s.readLoc a' l' := by
  cases l' with
  | entry b =>
    change (Mem.read (Mem.write s.mem a d) a').getD _ = (Mem.read s.mem a').getD _
    rw [Mem.read_write, if_neg hne]
    rfl
  | cmd | ctrl | stat | rc | id | opc | pn _ | addr | rlen | csum | rid | rerr | qn | scanlo | scanhi => rfl
  | scann | phase | txn _ | rxn _ | settle _ | timeout _ | baud _ | reserved => rfl

/-- A write of an RW place or of CTRL changes the read of no other address (rule R76). -/
theorem State.readLoc_writeLoc_ne (s : State) {a a' : Nat} (d : Byte) (hne : a' ≠ a) (hcmd : locate a ≠ .cmd)
    (hstat : locate a ≠ .stat) (hres : locate a ≠ .reserved) :
    (s.writeLoc a d (locate a)).readLoc a' (locate a') = s.readLoc a' (locate a') := by
  by_cases hentry : ∃ b, locate a = .entry b
  · obtain ⟨b, hb⟩ := hentry
    rw [hb]
    cases b with
    | pb | rxb => exact s.readLoc_writeMem d _ hne
    | qb | scanlist | txb => rfl
  · have hentry : ∀ b, locate a ≠ .entry b := fun b hb => hentry ⟨b, hb⟩
    exact s.readLoc_writeLoc_register a a' d (locate_ne hne hres hentry) hcmd hstat hentry

/-- In IDLE a write of an RW place or of CTRL leaves the bus reads of the other addresses as they were. -/
theorem State.busRead_busWrite_ne {s : State} {a a' : Addr} (d : Byte) (hb : s.stat.busy = false) (hne : a' ≠ a)
    (hcmd : locate a.toNat ≠ .cmd) (hstat : locate a.toNat ≠ .stat) (hres : locate a.toNat ≠ .reserved) :
    (s.busWrite a d).busRead a' = s.busRead a' := by
  have hbusy := (s.writeLoc_idle d hcmd).2.1.trans hb
  rw [State.busWrite_idle hb, State.busRead_eq (.inl hbusy), State.busRead_eq (.inl hb)]
  exact s.readLoc_writeLoc_ne d (fun h => hne (BitVec.eq_of_toNat_eq h)) hcmd hstat hres

/-- CTRL holds bits 0 and 1 of what is written (rule R24). -/
theorem Ctrl.byte_of_write (d : Byte) : Ctrl.byte { ie := d.getLsbD 0, rxmode := d.getLsbD 1 } = d &&& 0x03 := by
  refine BitVec.eq_of_getLsbD_eq fun i hi => ?_
  rw [Ctrl.byte, BitVec.getLsbD_or, flagBit_getLsbD _ _ hi, flagBit_getLsbD _ _ hi, BitVec.getLsbD_and]
  interval_cases i <;> simp

/-- Settles O53: what a place reads after a write of it, and after a write of another. -/
theorem hostWritesReadBack : Obligations.HostWritesReadBack := by
  intro s a d hb
  refine ⟨fun ⟨hlisted, hne0⟩ => ?_, fun hctrl => ?_, s.busWrite_reserved_or_readOnly d⟩
  · have hlock := (locate_locked_iff _).mpr hlisted
    have hcmd : locate a.toNat ≠ .cmd := mt (locate_cmd_iff _).mp hne0
    have hstat : locate a.toNat ≠ .stat := fun h => by rw [h] at hlock; cases hlock
    have hres : locate a.toNat ≠ .reserved := fun h => by rw [h] at hlock; cases hlock
    have hbusy := (s.writeLoc_idle d hcmd).2.1.trans hb
    refine ⟨?_, fun a' hne => State.busRead_busWrite_ne d hb hne hcmd hstat hres⟩
    rw [State.busWrite_idle hb, State.busRead_eq (.inl hbusy)]
    exact s.readLoc_writeLoc_same a.toNat d hlock hcmd (place_locate _).1
  · have hloc : locate a.toNat = .ctrl := (locate_ctrl_stat_iff _).1.mpr hctrl
    refine ⟨?_, fun a' hne => State.busRead_busWrite_ne d hb hne ?_ ?_ ?_⟩
    · have hbusy : (s.setCtrl { ie := d.getLsbD 0, rxmode := d.getLsbD 1 }).stat.busy = false := hb
      rw [State.busWrite_ctrl s d hctrl, State.busRead_eq (.inl hbusy), hloc]
      exact Ctrl.byte_of_write d
    all_goals
      rw [hloc]
      decide

end Sys2Proof.Machine

/-! PROOF. Runs of a command through several cycles: what every cycle of a run keeps, and cycles in which only a counter moves. -/

namespace Sys2Proof.Machine

/-! ## Courses -/

theorem State.arrivals_add {s t : State} (m n : Nat) (ht : t.script = s.script.drop m) :
    s.arrivals (m + n) = s.arrivals m ++ t.arrivals n := by
  unfold State.arrivals
  rw [ht, List.take_add, List.flatMap_append]

theorem State.arrivals_one (s : State) : s.arrivals 1 = s.now.rx := by
  rw [State.arrivals_succ (t := s.endCycle) 0 rfl, State.arrivals, List.take_zero, List.flatMap_nil, List.append_nil]

theorem State.txReadyFor_drop {s t : State} {m n : Nat} (h : s.txReadyFor (m + n)) (ht : t.script = s.script.drop m)
    (hl : t.lateReady = s.lateReady) : t.txReadyFor n := fun k hk => by
  rw [State.input_drop ht hl]
  exact h (m + k) (by omega)

theorem State.noReset_le {s : State} {m n : Nat} (h : s.noReset n) (hm : m ≤ n) : s.noReset m :=
  fun k hk => h k (hk.trans_le hm)

/-- `t` is `s` after `n` cycles of the running command, which goes on: RC, STAT.OPEN, the operands, the latched code and mode and the
parameters are as they were, and `n` inputs are used up. -/
structure Course (n : Nat) (s t : State) : Prop where
  run    : runN n s = .next t
  busy   : t.stat.busy = true
  opened : t.stat.opened = s.stat.opened
  rc     : t.rc = s.rc
  regs   : t.regs = s.regs
  cmd    : t.seq.cmd = s.seq.cmd
  rxmode : t.seq.rxmode = s.seq.rxmode
  params : t.params = s.params
  script : t.script = s.script.drop n
  late   : t.lateReady = s.lateReady

theorem Course.refl {s : State} (hb : s.stat.busy = true) : Course 0 s s :=
  ⟨rfl, hb, rfl, rfl, rfl, rfl, rfl, rfl, rfl, rfl⟩

theorem Course.trans {m n : Nat} {s u t : State} (h : Course m s u) (k : Course n u t) : Course (m + n) s t where
  run := (runN_add h.run).trans k.run
  busy := k.busy
  opened := k.opened.trans h.opened
  rc := k.rc.trans h.rc
  regs := k.regs.trans h.regs
  cmd := k.cmd.trans h.cmd
  rxmode := k.rxmode.trans h.rxmode
  params := k.params.trans h.params
  script := by rw [k.script, h.script, List.drop_drop]
  late := k.late.trans h.late

theorem Course.fetch {n : Nat} {s t : State} (h : Course n s t) : t.fetch = s.fetch := by
  rw [State.fetch, State.fetch, h.cmd, h.regs]

theorem Course.noReset {m n : Nat} {s t : State} (h : Course m s t) (hr : s.noReset (m + n)) : t.noReset n :=
  State.noReset_drop hr h.script

theorem Course.txReadyFor {m n : Nat} {s t : State} (h : Course m s t) (hr : s.txReadyFor (m + n)) : t.txReadyFor n :=
  State.txReadyFor_drop hr h.script h.late

theorem Course.arrivals_add {m : Nat} {s t : State} (h : Course m s t) (n : Nat) :
    s.arrivals (m + n) = s.arrivals m ++ t.arrivals n := State.arrivals_add m n h.script

/-- A step of a running command. -/
theorem step_of_runCommand {s u : State} (hr : s.now.rst = false) (hb : s.stat.busy = true)
    (hrun : runCommand s.fetch s.front = .next u) : step s = .next u.endCycle := by
  rw [step_busy hr hb, hrun]
  rfl

/-- One cycle that does not end the command. -/
theorem Course.of_runCommand {s u : State} (hr : s.noReset 1) (hb : s.stat.busy = true)
    (hrun : runCommand s.fetch s.front = .next u) (hbusy : u.stat.busy = true) (hopen : u.stat.opened = s.stat.opened)
    (hrc : u.rc = s.rc) : Course 1 s u.endCycle := by
  have hk := Keeps.runCommand hrun
  obtain ⟨c, d, o, r, hf⟩ := State.front_busy hb
  rw [hf] at hk
  refine ⟨runN_succ (n := 0) (step_of_runCommand (State.noReset_now hr) hb hrun), hbusy, hopen, hrc, hk.regs, hk.cmd,
    hk.rxmode, hk.params, ?_, hk.lateReady⟩
  rw [State.endCycle_script, hk.script, List.drop_one]

/-! ## Cycles in which only a counter moves -/

/-- Through the `n` cycles from `s` to `t` the phase, the buffers, the results and the transmit trace are unchanged, what arrived is
in the FIFO, and the sequencer's registers are `q`. -/
structure Passes (n : Nat) (q : Seq) (s t : State) : Prop extends Course n s t where
  phase : t.phase = s.phase
  mem   : t.mem = s.mem
  res   : t.res = s.res
  rxn   : t.rxn = s.rxn
  seq   : t.seq = q
  line  : t.line = { fifo := s.line.fifo ++ s.arrivals n, txlog := s.line.txlog }

theorem Passes.refl {s : State} (hb : s.stat.busy = true) : Passes 0 s.seq s s :=
  ⟨Course.refl hb, rfl, rfl, rfl, rfl, rfl, by simp [State.arrivals]⟩

theorem Passes.trans {m n : Nat} {q q' : Seq} {s u t : State} (h : Passes m q s u) (k : Passes n q' u t) :
    Passes (m + n) q' s t := by
  refine ⟨h.toCourse.trans k.toCourse, k.phase.trans h.phase, k.mem.trans h.mem, k.res.trans h.res, k.rxn.trans h.rxn, k.seq,
    ?_⟩
  rw [k.line, h.line, h.toCourse.arrivals_add, List.append_assoc]

/-- The line at the end of a cycle that left the FIFO to the environment. -/
theorem endCycle_line_of_keeps {s u : State} (hb : s.stat.busy = true) (hk : Keeps s.front u) :
    u.endCycle.line = { fifo := u.line.fifo ++ s.arrivals 1, txlog := u.line.txlog } := by
  obtain ⟨c, d, o, r, hf⟩ := State.front_busy hb
  rw [hf] at hk
  have hnow : u.now = s.now := by
    rw [State.now, hk.script, hk.lateReady]
    rfl
  rw [State.endCycle_line, hnow, State.arrivals_one]

/-- One such cycle. -/
theorem Passes.of_runCommand {s u : State} (hr : s.noReset 1) (hb : s.stat.busy = true)
    (hrun : runCommand s.fetch s.front = .next u) (hbusy : u.stat.busy = true) (hopen : u.stat.opened = s.stat.opened)
    (hrc : u.rc = s.rc) (hphase : u.phase = s.phase) (hmem : u.mem = s.mem) (hres : u.res = s.res) (hrxn : u.rxn = s.rxn)
    (hline : u.line = s.line) : Passes 1 u.seq s u.endCycle := by
  refine ⟨Course.of_runCommand hr hb hrun hbusy hopen hrc, hphase, hmem, hres, hrxn, rfl, ?_⟩
  rw [endCycle_line_of_keeps hb (Keeps.runCommand hrun), hline]

/-- Cycle after cycle: where each of the first `n` cycles takes the sequencer's registers from `q k` to `q (k + 1)`, all of them take
them from `q 0` to `q n`. -/
theorem Passes.iterate {s : State} {q : Nat → Seq} {n : Nat} (hb : s.stat.busy = true) (hr : s.noReset n)
    (h0 : s.seq = q 0)
    (hstep : ∀ k < n, ∀ u, Passes k (q k) s u → u.noReset 1 → ∃ t, Passes 1 (q (k + 1)) u t) :
    ∃ t, Passes n (q n) s t := by
  induction n with
  | zero => exact ⟨s, h0 ▸ Passes.refl hb⟩
  | succ n ih =>
    obtain ⟨u, hu⟩ := ih (State.noReset_le hr (Nat.le_succ n)) fun k hk => hstep k (Nat.lt_succ_of_lt hk)
    obtain ⟨t, ht⟩ := hstep n (Nat.lt_succ_self n) u hu (hu.toCourse.noReset hr)
    exact ⟨t, hu.trans ht⟩

/-! ## Local commands -/

/-- What runs at `s` is a local command, or an illegal one, whose last cycle is `act` (rules R102, R262). -/
def State.runsLocal (s : State) (act : State → State) : Prop :=
  ∀ u, u.params = s.params → runCommand s.fetch u = u.localCycle act

/-- The last cycle of a local command and of an illegal one ends it. -/
theorem runsLocal_of_decode {s : State}
    (h : (∃ i, decode s.params s.fetch = .ok i ∧ i.isLocal = true) ∨ (∃ e, decode s.params s.fetch = .error e)) :
    ∃ act, s.runsLocal act ∧ ∀ u : State, u.stat.busy = true →
      (act u).stat.busy = false ∧ (act u).stat.done = true ∧ (act u).phase = .idle := by
  rcases h with ⟨i, hd, hi⟩ | ⟨e, hd⟩
  · refine ⟨localAct i, fun u hu => ?_, fun u hb => ?_⟩
    · rw [runCommand, hu, hd]
      exact exec_local hi u
    · obtain ⟨-, hbusy, -⟩ := localAct_ends hi u
      refine (Quiet.localAct hi u).hand.resolve_left fun ⟨_, hsame, _⟩ => ?_
      rw [hbusy, hb] at hsame
      cases hsame
  · refine ⟨fun t => t.finish .badCommand, fun u hu => ?_, fun u _ => ⟨rfl, rfl, rfl⟩⟩
    rw [runCommand, hu, hd]
    rfl

theorem State.runsLocal_of_course {n : Nat} {s t : State} {act : State → State} (h : s.runsLocal act)
    (hc : Course n s t) : t.runsLocal act := fun u hu => by
  rw [hc.fetch]
  exact h u (hu.trans hc.params)

/-- The cycles of a local command before its last. -/
theorem local_wait_run {s : State} {act : State → State} (hb : s.stat.busy = true) (hp : s.phase = .localCmd)
    (hl : s.runsLocal act) {n : Nat} (hn : s.seq.dly + n < s.params.latLocal) (hr : s.noReset n) :
    ∃ t, Passes n { s.seq with dly := s.seq.dly + n } s t := by
  refine Passes.iterate (q := fun k => { s.seq with dly := s.seq.dly + k }) hb hr rfl fun k hk u hu hr1 => ?_
  obtain ⟨c, d, o, r, hf⟩ := State.front_busy hu.busy
  have hseq : u.front.seq = { s.seq with dly := s.seq.dly + k } := by rw [hf]; exact hu.seq
  have hrun : runCommand u.fetch u.front = .next u.front.wait := by
    rw [State.runsLocal_of_course hl hu.toCourse u.front (State.front_unit hu.busy).1,
      State.localCycle_eq _ (by rw [hf]; exact hu.phase.trans hp), State.afterDelay_wait]
    · rfl
    · rw [hseq, (State.front_unit hu.busy).1, hu.params]
      dsimp only
      omega
  have hpass := Passes.of_runCommand hr1 hu.busy hrun (by rw [hf]; exact hu.busy) (by rw [hf]; rfl) (by rw [hf]; rfl)
    (by rw [hf]; rfl) (by rw [hf]; rfl) (by rw [hf]; rfl) (by rw [hf]; rfl) (by rw [hf]; rfl)
  have hq : u.front.wait.seq = { s.seq with dly := s.seq.dly + (k + 1) } := by
    rw [State.wait, State.setSeq_seq, hseq, Nat.add_assoc]
  exact ⟨_, hq ▸ hpass⟩

/-- Settles O21: LAT_LOCAL - 1 waiting cycles, and the last one ends the command. -/
theorem localCommandsEndAfterLatLocalCycles : Obligations.LocalCommandsEndAfterLatLocalCycles := by
  intro s hb hp hd h1 hr hunit
  obtain ⟨act, hl, hends⟩ := runsLocal_of_decode hunit
  have hwait {k : Nat} (hk : k < s.params.latLocal) : ∃ t, Passes k { s.seq with dly := s.seq.dly + k } s t :=
    local_wait_run hb hp hl (by omega) (State.noReset_le hr hk.le)
  refine ⟨fun k hk => ?_, ?_⟩
  · obtain ⟨t, ht⟩ := hwait hk
    exact ⟨t, ht.run, ht.busy, ht.phase.trans hp, ht.rc⟩
  · obtain ⟨n, hn⟩ : ∃ n, s.params.latLocal = n + 1 := ⟨s.params.latLocal - 1, by omega⟩
    obtain ⟨u, hu⟩ := hwait (k := n) (by omega)
    obtain ⟨c, d, o, r, hf⟩ := State.front_busy hu.busy
    have hlast : u.front.atLocalEnd := by
      refine ⟨by rw [hf]; exact hu.phase.trans hp, ?_⟩
      rw [(State.front_unit hu.busy).1, (State.front_unit hu.busy).2, hu.params, hu.seq]
      dsimp only
      omega
    have hrun : runCommand u.fetch u.front = .next (act u.front.ready) := by
      rw [State.runsLocal_of_course hl hu.toCourse u.front (State.front_unit hu.busy).1, State.localCycle_last _ hlast]
      rfl
    obtain ⟨hbusy, hdone, hidle⟩ := hends u.front.ready (by rw [hf]; exact hu.busy)
    have hr1 : u.noReset 1 := hu.toCourse.noReset (hn ▸ hr)
    refine ⟨(act u.front.ready).endCycle, ?_, hbusy, hdone, hidle⟩
    rw [hn, runN_add hu.run]
    exact runN_succ (n := 0) (step_of_runCommand (State.noReset_now hr1) hu.busy hrun)

end Sys2Proof.Machine

/-! PROOF. Runs of a channel command: the stalled and the ready write (rules R192, R196, R198), the settle wait (rule R212), SNAPSHOT
(rule R213) and the timeout of REASSEMBLE (rules R218, R220). -/

namespace Sys2Proof.Machine

/-! ## Cycles of a channel command -/

/-- The channel command `i` runs at `s`. -/
structure Runs (i : Instr) (s : State) : Prop where
  busy    : s.stat.busy = true
  decodes : decode s.params s.fetch = .ok i
  channel : i ∈ channelInstrs

theorem Runs.of_course {i : Instr} {n : Nat} {s t : State} (h : Runs i s) (hc : Course n s t) : Runs i t :=
  ⟨hc.busy, by rw [hc.params, hc.fetch]; exact h.decodes, h.channel⟩

theorem Runs.runCommand_eq {i : Instr} {s : State} (h : Runs i s) : runCommand s.fetch s.front = exec i s.front := by
  rw [runCommand, (State.front_unit h.busy).1, h.decodes]

/-- A cycle of a channel command that goes on. -/
theorem Runs.course {i : Instr} {s u : State} (h : Runs i s) (hr : s.noReset 1) (he : exec i s.front = .next u)
    (hbusy : u.stat.busy = true) : Course 1 s u.endCycle := by
  obtain ⟨c, d, o, r, hf⟩ := State.front_busy h.busy
  have hrc : u.rc = s.rc := by
    rcases resultIsWrittenOnlyAtTheEnd i _ _ he with ⟨hrc, -⟩ | ⟨hb, -⟩
    · rw [hrc, hf]
    · rw [hbusy] at hb
      cases hb
  have hne : i ≠ .openCh ∧ i ≠ .closeCh := by
    constructor <;> rintro rfl <;> exact absurd h.channel (by decide)
  have hopen : u.stat.opened = s.stat.opened := by
    rw [(statusBitsHaveTheirOwnWriters i _ _ he).2.1 hne.1 hne.2, hf]
  exact Course.of_runCommand hr h.busy (h.runCommand_eq.trans he) hbusy hopen hrc

/-- A cycle of the exchange that goes on, as a step. -/
theorem Runs.step {i : Instr} {s u : State} (h : Runs i s) (hr : s.noReset 1) (he : exec i s.front = .next u) :
    runN 1 s = .next u.endCycle :=
  runN_succ (n := 0) (step_of_runCommand (State.noReset_now hr) h.busy (h.runCommand_eq.trans he))

/-- The line at the end of such a cycle. -/
theorem Runs.line {i : Instr} {s u : State} (h : Runs i s) (he : exec i s.front = .next u) :
    u.endCycle.line = { fifo := u.line.fifo ++ s.arrivals 1, txlog := u.line.txlog } :=
  endCycle_line_of_keeps h.busy (Keeps.exec he)

/-- A cycle in which only the sequencer's registers and the strobes change. -/
theorem Runs.passes {i : Instr} {s u : State} (h : Runs i s) (hr : s.noReset 1) (he : exec i s.front = .next u)
    (hbusy : u.stat.busy = true) (hphase : u.phase = s.phase) (hmem : u.mem = s.mem) (hres : u.res = s.res)
    (hrxn : u.rxn = s.rxn) (hline : u.line = s.line) : Passes 1 u.seq s u.endCycle := by
  refine ⟨h.course hr he hbusy, hphase, hmem, hres, hrxn, rfl, ?_⟩
  rw [h.line he, hline]

/-! ## Waiting -/

/-- The cycles of the step that stands in phase PHASE; one where the step has no count (rule R299). -/
def State.stepCycles (s : State) : Nat :=
  match s.phase with
  | .localCmd => s.params.buildCycles
  | .flush => s.params.flushCycles
  | .snap => if s.seq.snap = none then 1 else s.params.popCycles
  | .parse => s.params.parseCycles
  | .scanStep | .idle | .tx | .settle | .reasm => 1

/-- What the front of a cycle shows of a running command. -/
theorem State.front_stepCycles {s : State} (hb : s.stat.busy = true) : s.front.stepCycles = s.stepCycles := by
  obtain ⟨c, d, o, r, hf⟩ := State.front_busy hb
  rw [hf]
  rfl

/-- A step's cycle before its last, PING's PINGOK apart (log entry 13). -/
theorem exec_wait {i : Instr} {s : State} (hi : i ∈ channelInstrs) (hd : s.seq.dly + 1 < s.stepCycles) :
    exec i s = .next s.wait ∨ exec i s = .next (s.setPingok false).wait := by
  unfold State.stepCycles at hd
  split at hd
  · rename_i hp
    by_cases hping : i = .ping
    · exact .inr (by rw [(Cycle.buildWait hi hp hd).eq, buildEntry, if_pos hping])
    · exact .inl (by rw [(Cycle.buildWait hi hp hd).eq, buildEntry, if_neg hping])
  · rename_i hp
    exact .inl (exec_of_exchange hi (by rw [hp]; rfl) (.flushWait hp hd))
  · rename_i hp
    cases hs : s.seq.snap with
    | none => rw [if_pos hs] at hd; omega
    | some n =>
      rw [hs, if_neg (by simp)] at hd
      exact .inl (exec_of_exchange hi (by rw [hp]; rfl) (.popWait n hp hs hd))
  · rename_i hp
    exact .inl (exec_of_exchange hi (by rw [hp]; rfl) (.parseWait hp hd))
  all_goals omega

/-- The cycles of a step before its last. -/
theorem Runs.wait_run {i : Instr} {s : State} (h : Runs i s) {n : Nat} (hn : s.seq.dly + n < s.stepCycles)
    (hr : s.noReset n) : ∃ t, Passes n { s.seq with dly := s.seq.dly + n } s t := by
  refine Passes.iterate (q := fun k => { s.seq with dly := s.seq.dly + k }) h.busy hr rfl fun k hk u hu hr1 => ?_
  have hrun := h.of_course hu.toCourse
  obtain ⟨c, d, o, r, hf⟩ := State.front_busy hu.busy
  have hsteps : u.front.stepCycles = s.stepCycles := by
    rw [State.front_stepCycles hu.busy, State.stepCycles, State.stepCycles, hu.phase, hu.params, hu.seq]
  have hseq : u.front.seq = { s.seq with dly := s.seq.dly + k } := (State.front_unit hu.busy).2.trans hu.seq
  have hdly : u.front.seq.dly + 1 < u.front.stepCycles := by
    rw [hsteps, hseq]
    dsimp only
    omega
  have hq : u.front.wait.seq = { s.seq with dly := s.seq.dly + (k + 1) } := by
    rw [State.wait, State.setSeq_seq, hseq, Nat.add_assoc]
  have hfields : u.front.phase = u.phase ∧ u.front.mem = u.mem ∧ u.front.res = u.res ∧ u.front.rxn = u.rxn ∧
      u.front.line = u.line ∧ u.front.stat.busy = true := by
    rw [hf]
    exact ⟨rfl, rfl, rfl, rfl, rfl, hu.busy⟩
  obtain ⟨hphase, hmem, hres, hrxn, hline, hbusy⟩ := hfields
  rcases exec_wait hrun.channel hdly with he | he
  · exact ⟨_, hq ▸ hrun.passes hr1 he hbusy hphase hmem hres hrxn hline⟩
  · exact ⟨_, hq ▸ hrun.passes hr1 he hbusy hphase hmem hres hrxn hline⟩

/-- A step of `n` cycles, seen from its first: the state in its last. -/
theorem Runs.wait_all {i : Instr} {s : State} (h : Runs i s) (hd : s.seq.dly = 0) {n : Nat} (hn : s.stepCycles = n + 1)
    (hr : s.noReset n) : ∃ t, Passes n { s.seq with dly := n } s t := by
  obtain ⟨t, ht⟩ := h.wait_run (n := n) (by omega) hr
  rw [hd, Nat.zero_add] at ht
  exact ⟨t, ht⟩

/-! ## The write -/

/-- A stalled UART: the byte stays offered and the sequencer stays as it is (rule R198). -/
theorem Runs.stall_run {i : Instr} {s : State} (h : Runs i s) (hp : s.phase = .tx)
    (hi : s.seq.i.toNat < s.res.txn.toNat) {n : Nat} (hr : s.noReset n) (hst : s.txStalledFor n) :
    ∃ t, Passes n s.seq s t := by
  refine Passes.iterate (q := fun _ => s.seq) h.busy hr rfl fun k hk u hu hr1 => ?_
  have hrun := h.of_course hu.toCourse
  obtain ⟨c, d, o, r, hf⟩ := State.front_busy hu.busy
  have hready : u.now.txReady = false := by
    rw [← u.input_zero, State.input_drop hu.script hu.late]
    exact hst k hk
  have he : exec i u.front = .next (u.front.uartSend (u.front.peek (0x400 + u.front.seq.i.toNat) 0)) := by
    rw [hf]
    refine exec_of_exchange h.channel ?_ (.txStall (hu.phase.trans hp) ?_ hready)
    · change u.phase.exchange = true
      rw [hu.phase, hp]
      rfl
    · change u.seq.i.toNat < u.res.txn.toNat
      rw [hu.seq, hu.res]
      exact hi
  rw [State.uartSend_stalled _ (by rw [hf]; exact hready)] at he
  have hpass := hrun.passes hr1 he (by rw [hf]; exact hu.busy) (by rw [hf]) (by rw [hf]) (by rw [hf]) (by rw [hf]) (by rw [hf])
  have hq : u.front.seq = s.seq := (State.front_unit hu.busy).2.trans hu.seq
  exact ⟨_, hq ▸ hpass⟩

/-- Settles O29: the stall is any number of such cycles; the other clauses are single cycles of `Exchange`. -/
theorem txOffersBytesInOrder : Obligations.TxOffersBytesInOrder := by
  refine ⟨fun s i hb hp hi hd hch => ?_, fun i s hch hp => ?_⟩
  · have h : Runs i s := ⟨hb, hd, hch⟩
    refine ⟨fun n hr hst => ?_, fun hall hlate n => ?_⟩
    · obtain ⟨t, ht⟩ := h.stall_run hp hi hr hst
      refine ⟨t, ht.run, ht.busy, ht.phase.trans hp, ht.seq, ht.res, ht.regs, ht.mem, ht.rc, ?_, ?_⟩
      · rw [ht.line]
      · rw [ht.line]
    · have hinput (k : Nat) : (s.input k).rst = false ∧ (s.input k).txReady = false := by
        rw [State.input, List.getD_eq_getElem?_getD]
        cases hk : s.script[k]? with
        | none => exact ⟨rfl, hlate⟩
        | some x => exact hall x (List.mem_of_getElem? hk)
      obtain ⟨t, ht⟩ := h.stall_run hp hi (fun k _ => (hinput k).1) (fun k (_ : k < n) => (hinput k).2)
      exact ⟨t, ht.run, ht.busy, ht.phase.trans hp⟩
  · have hx : s.phase.exchange = true := by rw [hp]; rfl
    intro b
    refine ⟨fun hi hready => ?_, fun hi hready => ?_⟩
    · rw [exec_of_exchange hch hx (.txStall hp hi hready), State.uartSend_stalled _ hready]
    · rw [exec_of_exchange hch hx (.txNext hp hi hready), State.uartSend_ready _ hready]
      rfl

/-- The byte at index `k` of the frame in TXB. -/
def State.txByte (s : State) (k : Nat) : Byte := (Mem.read s.mem (0x400 + k)).getD 0

/-- A listed byte of TXB is what the UART is offered, whatever the free values. -/
theorem State.peek_txByte {s : State} {k : Nat} (h : (Mem.read s.mem (0x400 + k)).isSome = true) :
    s.peek (0x400 + k) 0 = s.txByte k := by
  obtain ⟨b, hb⟩ := Option.isSome_iff_exists.mp h
  rw [State.peek_of_read hb, State.txByte, hb]
  rfl

/-- `t` is `s` once the rest of the frame, `n` bytes, is handed over, one byte a cycle. -/
structure Written (n : Nat) (s t : State) : Prop extends Course n s t where
  mem   : t.mem = s.mem
  rxn   : t.rxn = s.rxn
  phase : t.phase = s.receptionPhase
  seq   : t.seq = { s.seq with t := 0, i := 0, snap := none, dly := 0 }
  line  : t.line = { fifo := s.line.fifo ++ s.arrivals n
                     txlog := s.line.txlog ++ (List.range' s.seq.i.toNat n).map s.txByte }

/-- The cycle that hands over the last byte (rules R196, R210). -/
theorem Runs.last_byte {i : Instr} {s : State} (h : Runs i s) (hp : s.phase = .tx)
    (hi : s.seq.i.toNat + 1 = s.res.txn.toNat) (hr : s.noReset 1) (hready : s.txReadyFor 1)
    (hsome : (Mem.read s.mem (0x400 + s.seq.i.toNat)).isSome = true) : ∃ t, Written 1 s t := by
  obtain ⟨c, d, o, r, hf⟩ := State.front_busy h.busy
  have hbyte := State.peek_txByte hsome
  have he := lastByteStartsReception i s.front h.channel (by rw [hf]; exact hp) (by rw [hf]; exact hi)
    (by rw [hf]; exact State.txReady_now hready)
  refine ⟨_, h.course hr he (by rw [hf]; exact h.busy), by rw [hf]; rfl, by rw [hf]; rfl, by rw [hf]; rfl, by rw [hf]; rfl, ?_⟩
  rw [h.line he, hf]
  refine (Line.mk.injEq ..).mpr ⟨rfl, ?_⟩
  exact congrArg (fun b => s.line.txlog ++ [b]) hbyte

/-- The cycle that hands over a byte before the last (rule R196). -/
theorem Runs.next_byte {i : Instr} {s : State} (h : Runs i s) (hp : s.phase = .tx)
    (hi : s.seq.i.toNat + 1 < s.res.txn.toNat) (hr : s.noReset 1) (hready : s.txReadyFor 1)
    (hsome : (Mem.read s.mem (0x400 + s.seq.i.toNat)).isSome = true) :
    ∃ u, Course 1 s u ∧ u.phase = .tx ∧ u.mem = s.mem ∧ u.res = s.res ∧ u.rxn = s.rxn ∧
      u.seq = { s.seq with i := s.seq.i + 1 } ∧
      u.line = { fifo := s.line.fifo ++ s.arrivals 1, txlog := s.line.txlog ++ [s.txByte s.seq.i.toNat] } := by
  obtain ⟨c, d, o, r, hf⟩ := State.front_busy h.busy
  have hbyte := State.peek_txByte hsome
  have he := (txOffersBytesInOrder.2 i s.front h.channel (by rw [hf]; exact hp)).2 (by rw [hf]; exact hi)
    (by rw [hf]; exact State.txReady_now hready)
  refine ⟨_, h.course hr he (by rw [hf]; exact h.busy), by rw [hf]; exact hp, by rw [hf]; rfl, by rw [hf]; rfl,
    by rw [hf]; rfl, by rw [hf]; rfl, ?_⟩
  rw [h.line he, hf]
  refine (Line.mk.injEq ..).mpr ⟨rfl, ?_⟩
  exact congrArg (fun b => s.line.txlog ++ [b]) hbyte

/-- The rest of a frame goes out in order, by induction on the bytes behind the next one (rules R83, R196). -/
theorem Runs.write_run {i : Instr} (n : Nat) : ∀ {s : State}, Runs i s → s.phase = .tx →
    s.seq.i.toNat + (n + 1) = s.res.txn.toNat → s.noReset (n + 1) → s.txReadyFor (n + 1) →
    (∀ k < s.res.txn.toNat, (Mem.read s.mem (0x400 + k)).isSome = true) → ∃ t, Written (n + 1) s t := by
  induction n with
  | zero => exact fun h hp hi hr hready hsome => h.last_byte hp hi hr hready (hsome _ (by omega))
  | succ n ih =>
    intro s h hp hi hr hready hsome
    have hlt := s.res.txn.isLt
    obtain ⟨u, hc, hup, hmem, hres, hrxn, hseq, hline⟩ := h.next_byte hp (by omega) (State.noReset_le hr (by omega))
      (fun k hk => hready k (by omega)) (hsome _ (by omega))
    have hi' : u.seq.i.toNat = s.seq.i.toNat + 1 := by
      rw [hseq]
      change (s.seq.i + 1).toNat = _
      bv_omega
    have hsum : n + 1 + 1 = 1 + (n + 1) := by omega
    rw [hsum] at hr hready ⊢
    obtain ⟨t, ht⟩ := ih (h.of_course hc) hup (by rw [hi', hres]; omega) (hc.noReset hr) (hc.txReadyFor hready)
      (by rw [hmem, hres]; exact hsome)
    refine ⟨t, hc.trans ht.toCourse, ht.mem.trans hmem, ht.rxn.trans hrxn, ht.phase.trans ?_, ?_, ?_⟩
    · rw [State.receptionPhase, State.receptionPhase, hc.rxmode, hc.regs]
    · rw [ht.seq, hseq]
    · have hbytes : u.txByte = s.txByte := by
        funext k
        rw [State.txByte, State.txByte, hmem]
      rw [ht.line, hline, hc.arrivals_add, hbytes, hi', List.append_assoc, List.append_assoc, Nat.add_comm 1 (n + 1),
        List.range'_succ]
      rfl

/-- Settles O31: the rest of the frame at index 0 is all of it. -/
theorem writeHandsOverTheWholeFrame : Obligations.WriteHandsOverTheWholeFrame := by
  intro s i hb hp hi h1 hd hch hr hready hsome
  obtain ⟨n, hn⟩ : ∃ n, s.res.txn.toNat = n + 1 := ⟨s.res.txn.toNat - 1, by omega⟩
  have h0 : s.seq.i.toNat = 0 := by rw [hi]; rfl
  obtain ⟨t, ht⟩ := Runs.write_run n ⟨hb, hd, hch⟩ hp (by omega) (hn ▸ hr) (hn ▸ hready) hsome
  rw [← hn] at ht
  refine ⟨t, ht.run, ht.busy, ?_, ?_, ht.mem, ht.rc, ht.phase⟩
  · rw [ht.line, h0, ← List.range_eq_range']
    rfl
  · rw [ht.line]

/-! ## The settle wait -/

/-- The cycles of the settle wait before its last (rule R212). -/
theorem Runs.settle_run {i : Instr} {s : State} (h : Runs i s) (hp : s.phase = .settle) (ht : s.seq.t = 0) {n : Nat}
    (hn : n < s.regs.settle.toNat) (hr : s.noReset n) :
    ∃ t, Passes n { s.seq with t := BitVec.ofNat 32 n } s t := by
  have hlt := s.regs.settle.isLt
  refine Passes.iterate (q := fun k => { s.seq with t := BitVec.ofNat 32 k }) h.busy hr ?_ fun k hk u hu hr1 => ?_
  · change s.seq = { s.seq with t := 0 }
    rw [← ht]
  have hrun := h.of_course hu.toCourse
  obtain ⟨c, d, o, r, hf⟩ := State.front_busy hu.busy
  have htk : u.seq.t.toNat = k := by
    rw [hu.seq]
    exact (BitVec.toNat_ofNat ..).trans (Nat.mod_eq_of_lt (by omega))
  have he : exec i u.front = .next (u.front.setSeq { u.front.seq with t := u.front.seq.t + 1 }) := by
    rw [hf]
    refine exec_of_exchange h.channel ?_ (.settleWait (hu.phase.trans hp) ?_)
    · change u.phase.exchange = true
      rw [hu.phase, hp]
      rfl
    · change u.seq.t.toNat + 1 < u.regs.settle.toNat
      rw [htk, hu.regs]
      omega
  have hpass := hrun.passes hr1 he (by rw [hf]; exact hu.busy) (by rw [hf]; rfl) (by rw [hf]; rfl) (by rw [hf]; rfl)
    (by rw [hf]; rfl) (by rw [hf]; rfl)
  have hq : (u.front.setSeq { u.front.seq with t := u.front.seq.t + 1 }).seq =
      { s.seq with t := BitVec.ofNat 32 (k + 1) } := by
    rw [State.setSeq_seq, (State.front_unit hu.busy).2, hu.seq, BitVec.ofNat_add]
    rfl
  exact ⟨_, hq ▸ hpass⟩

/-- The whole settle wait: SETTLE cycles, and SNAP begins (rule R212). -/
theorem Runs.settle_all {i : Instr} {s : State} (h : Runs i s) (hp : s.phase = .settle) (ht : s.seq.t = 0)
    (h1 : 1 ≤ s.regs.settle.toNat) (hr : s.noReset s.regs.settle.toNat) :
    ∃ t, Course s.regs.settle.toNat s t ∧ t.phase = .snap ∧ t.mem = s.mem ∧ t.rxn = s.rxn ∧
      t.seq.snap = s.seq.snap ∧ t.line = { fifo := s.line.fifo ++ s.arrivals s.regs.settle.toNat, txlog := s.line.txlog } := by
  obtain ⟨n, hn⟩ : ∃ n, s.regs.settle.toNat = n + 1 := ⟨s.regs.settle.toNat - 1, by omega⟩
  have hlt := s.regs.settle.isLt
  rw [hn] at hr
  obtain ⟨u, hu⟩ := h.settle_run hp ht (n := n) (by omega) (State.noReset_le hr (Nat.le_succ n))
  have hrun := h.of_course hu.toCourse
  have hr1 : u.noReset 1 := hu.toCourse.noReset hr
  obtain ⟨c, d, o, r, hf⟩ := State.front_busy hu.busy
  have htk : u.seq.t.toNat = n := by
    rw [hu.seq]
    exact (BitVec.toNat_ofNat ..).trans (Nat.mod_eq_of_lt (by omega))
  have he : exec i u.front = .next ((u.front.setSeq { u.front.seq with t := u.front.seq.t + 1 }).enter .snap) := by
    rw [hf]
    refine exec_of_exchange h.channel ?_ (.settleLast (hu.phase.trans hp) ?_)
    · change u.phase.exchange = true
      rw [hu.phase, hp]
      rfl
    · change u.regs.settle.toNat ≤ u.seq.t.toNat + 1
      rw [htk, hu.regs, hn]
  have hc := hrun.course hr1 he (by rw [hf]; exact hu.busy)
  have hsnap : u.seq.snap = s.seq.snap := by rw [hu.seq]
  rw [hn]
  refine ⟨_, hu.toCourse.trans hc, rfl, ?_, ?_, ?_, ?_⟩
  · rw [hf]; exact hu.mem
  · rw [hf]; exact hu.rxn
  · rw [hf]; exact hsnap
  · rw [hrun.line he, hf, hu.toCourse.arrivals_add, ← List.append_assoc]
    refine (Line.mk.injEq ..).mpr ⟨?_, ?_⟩
    · change u.line.fifo ++ _ = _
      rw [hu.line]
    · change u.line.txlog = _
      rw [hu.line]

/-- Settles O32: fewer than SETTLE cycles pass, and the last one enters SNAP. -/
theorem settleWaitLastsExactlySettleCycles : Obligations.SettleWaitLastsExactlySettleCycles := by
  intro s i hb hp ht h1 hd hch hr
  have h : Runs i s := ⟨hb, hd, hch⟩
  refine ⟨fun k hk => ?_, ?_⟩
  · obtain ⟨t, hpass⟩ := h.settle_run hp ht hk (State.noReset_le hr hk.le)
    exact ⟨t, hpass.run, hpass.busy, hpass.phase.trans hp, by rw [hpass.line]⟩
  · obtain ⟨t, hc, htp, hmem, hrxn, -, hline⟩ := h.settle_all hp ht h1 hr
    exact ⟨t, hc.run, hc.busy, htp, by rw [hline], hmem, hrxn, hc.rc⟩

end Sys2Proof.Machine

/-! PROOF. Runs of a reception: SNAPSHOT's pops (rules R213, R214), and the timeout of REASSEMBLE (rules R218, R220). -/

namespace Sys2Proof.Machine

/-! ## Stores one after the other -/

theorem storesAt_nil_trans {s u t : State} {b b' c : Nat} (h : storesAt s u b []) (k : storesAt u t b' []) :
    storesAt s t c [] := fun a => by
  rw [k, h, if_neg (by simp), if_neg (by simp), if_neg (by simp)]

/-- A byte, and the bytes behind it. -/
theorem storesAt_cons {s u t : State} {base : Nat} {b : Byte} {bs : List Byte} (h : storesAt s u base [b])
    (k : storesAt u t (base + 1) bs) : storesAt s t base (b :: bs) := fun a => by
  rw [k, h, List.length_singleton, List.length_cons]
  rcases Nat.lt_trichotomy a base with hlt | rfl | hgt
  · rw [if_neg (by omega), if_neg (by omega), if_neg (by omega)]
  · rw [if_neg (by omega), if_pos (by omega), if_pos (by omega), Nat.sub_self]
    rfl
  · obtain ⟨j, rfl⟩ : ∃ j, a = base + 1 + j := ⟨a - (base + 1), by omega⟩
    by_cases hj : j < bs.length
    · rw [if_pos (by omega), if_pos (by omega), Nat.add_sub_cancel_left, Nat.add_assoc, Nat.add_sub_cancel_left,
        Nat.add_comm 1 j, List.getElem?_cons_succ]
    · rw [if_neg (by omega), if_neg (by omega), if_neg (by omega)]

/-! ## SNAPSHOT -/

/-- `t` is `s` after `n` cycles in which the first `r` bytes of the FIFO were popped, the ones counted below 259 kept from
index I on (rules R213, R214). -/
structure Popped (n r : Nat) (s t : State) : Prop extends Course n s t where
  stores : storesAt s t (0x600 + s.seq.i.toNat) ((s.line.fifo.take r).take (259 - s.seq.i.toNat))
  dly    : t.seq.dly = 0
  line   : t.line = { fifo := s.line.fifo.drop r ++ s.arrivals n, txlog := s.line.txlog }

/-- A step of `popCycles` cycles pops one byte (rules R193, R299). -/
theorem Runs.pop_one {i : Instr} {s : State} {n : Half} {b : Byte} {rest : List Byte} (h : Runs i s) (hp : s.phase = .snap)
    (hs : s.seq.snap = some n) (hd : s.seq.dly = 0) (hf : s.line.fifo = b :: rest) (hi : s.seq.i.toNat < n.toNat)
    (h1 : 1 ≤ s.params.popCycles) (hr : s.noReset s.params.popCycles) :
    ∃ t, Popped s.params.popCycles 1 s t ∧ t.seq = { s.seq with i := s.seq.i + 1 } ∧
      t.phase = (if s.seq.i.toNat + 1 = n.toNat then .parse else .snap) ∧
      t.rxn = if s.seq.i.toNat + 1 = n.toNat then n else s.rxn := by
  obtain ⟨m, hm⟩ : ∃ m, s.params.popCycles = m + 1 := ⟨s.params.popCycles - 1, by omega⟩
  have hsteps : s.stepCycles = m + 1 := by
    rw [State.stepCycles, hp]
    dsimp only
    rw [hs, if_neg (by simp), hm]
  rw [hm] at hr
  obtain ⟨u, hu⟩ := h.wait_all hd hsteps (State.noReset_le hr (Nat.le_succ m))
  have hrun := h.of_course hu.toCourse
  have hr1 : u.noReset 1 := hu.toCourse.noReset hr
  obtain ⟨c, d, o, r, hfr⟩ := State.front_busy hu.busy
  have hfifo : u.line.fifo = b :: (rest ++ s.arrivals m) := by
    rw [hu.line, hf]
    rfl
  have hui : u.seq.i = s.seq.i := by rw [hu.seq]
  obtain ⟨v, he, hstore, hv⟩ := snapshotPopsTheOldestByte i u.front n b (rest ++ s.arrivals m) h.channel
    (by rw [hfr]; exact hu.phase.trans hp) (by rw [hfr]; change u.seq.snap = _; rw [hu.seq]; exact hs)
    (by rw [hfr]; change u.params.popCycles ≤ u.seq.dly + 1; rw [hu.seq, hu.params, hm])
    (by rw [hfr]; exact hfifo) (by rw [hfr]; change u.seq.i.toNat < _; rw [hui]; exact hi)
  have hc := hrun.course hr1 he (by rw [hv, hfr]; exact hu.busy)
  have hstore' : storesAt s v.endCycle (0x600 + s.seq.i.toNat) (if s.seq.i.toNat < 259 then [b] else []) := fun a => by
    have hread := hstore a
    rw [hfr] at hread
    change Mem.read v.mem a = if _ then _ else Mem.read u.mem a at hread
    rw [hu.mem] at hread
    rw [← hui]
    exact hread
  have hkept : (s.line.fifo.take 1).take (259 - s.seq.i.toNat) = if s.seq.i.toNat < 259 then [b] else [] := by
    rw [hf, List.take_succ_cons, List.take_zero]
    split
    · rw [List.take_of_length_le (by rw [List.length_singleton]; omega)]
    · rw [Nat.sub_eq_zero_of_le (by omega), List.take_zero]
  have hline := hrun.line he
  have hvline : v.line = { fifo := rest ++ s.arrivals m, txlog := s.line.txlog } := by
    rw [hv, hfr]
    change ({ fifo := rest ++ s.arrivals m, txlog := u.line.txlog } : Line) = _
    rw [hu.line]
  rw [hm]
  refine ⟨v.endCycle, ⟨hu.toCourse.trans hc, hkept ▸ hstore', ?_, ?_⟩, ?_, ?_, ?_⟩
  · rw [State.endCycle_seq, hv]
  · rw [hline, hvline, hu.toCourse.arrivals_add, hf, List.drop_succ_cons, List.drop_zero, List.append_assoc]
  · rw [State.endCycle_seq, hv, hfr]
    change { u.seq with i := u.seq.i + 1, dly := 0 } = _
    rw [hu.seq, ← hd]
  · rw [State.endCycle_phase, hv, hfr]
    change (if u.seq.i.toNat + 1 = n.toNat then _ else _) = _
    rw [hui]
  · rw [State.endCycle_rxn, hv, hfr]
    change (if u.seq.i.toNat + 1 = n.toNat then n else u.rxn) = _
    rw [hui, hu.rxn]

/-- The pops of the counted bytes, by induction on how many are left behind the next one (rule R213). -/
theorem Runs.pops_run {i : Instr} {n : Half} (r : Nat) : ∀ {s : State}, Runs i s → s.phase = .snap → s.seq.snap = some n →
    s.seq.dly = 0 → s.seq.i.toNat + (r + 1) = n.toNat → r + 1 ≤ s.line.fifo.length → 1 ≤ s.params.popCycles →
    s.noReset ((r + 1) * s.params.popCycles) →
    ∃ t, Popped ((r + 1) * s.params.popCycles) (r + 1) s t ∧ t.phase = .parse ∧ t.rxn = n := by
  induction r with
  | zero =>
    intro s h hp hs hd hi hlen h1 hr
    obtain ⟨b, rest, hf⟩ := List.exists_cons_of_length_pos hlen
    rw [Nat.zero_add, Nat.one_mul] at hr ⊢
    obtain ⟨t, ht, -, htp, hrxn⟩ := h.pop_one hp hs hd hf (by omega) h1 hr
    rw [if_pos hi] at htp hrxn
    exact ⟨t, ht, htp, hrxn⟩
  | succ r ih =>
    intro s h hp hs hd hi hlen h1 hr
    obtain ⟨b, rest, hf⟩ := List.exists_cons_of_length_pos (Nat.lt_of_lt_of_le (Nat.succ_pos _) hlen)
    have hn := n.isLt
    have hsum : (r + 1 + 1) * s.params.popCycles = s.params.popCycles + (r + 1) * s.params.popCycles := by ring
    rw [hsum] at hr ⊢
    obtain ⟨u, hu, hseq, hup, -⟩ := h.pop_one hp hs hd hf (by omega) h1 (State.noReset_le hr (Nat.le_add_right _ _))
    rw [if_neg (by omega)] at hup
    have hi' : u.seq.i.toNat = s.seq.i.toNat + 1 := by
      rw [hseq]
      change (s.seq.i + 1).toNat = _
      bv_omega
    have hrest : r + 1 ≤ rest.length := by
      rw [hf, List.length_cons] at hlen
      omega
    have hfifo : u.line.fifo = rest ++ s.arrivals s.params.popCycles := by
      rw [hu.line, hf]
      rfl
    obtain ⟨t, ht, htp, hrxn⟩ := ih (h.of_course hu.toCourse) hup (by rw [hseq]; exact hs) hu.dly (by omega)
      (by rw [hfifo, List.length_append]; omega) (by rw [hu.params]; exact h1)
      (by rw [hu.params]; exact hu.toCourse.noReset hr)
    rw [hu.params] at ht
    refine ⟨t, ⟨hu.toCourse.trans ht.toCourse, ?_, ht.dly, ?_⟩, htp, hrxn⟩
    · have hfirst := hu.stores
      have hthen := ht.stores
      rw [hfifo, List.take_append_of_le_length hrest, hi'] at hthen
      rw [hf, List.take_succ_cons, List.take_zero] at hfirst
      rw [hf, List.take_succ_cons]
      by_cases hin : s.seq.i.toNat < 259
      · obtain ⟨j, hj⟩ : ∃ j, 259 - s.seq.i.toNat = j + 1 := ⟨258 - s.seq.i.toNat, by omega⟩
        have hj' : 259 - (s.seq.i.toNat + 1) = j := by omega
        rw [hj, List.take_succ_cons, List.take_nil] at hfirst
        rw [hj'] at hthen
        rw [hj, List.take_succ_cons]
        exact storesAt_cons hfirst hthen
      · have hj : 259 - s.seq.i.toNat = 0 := by omega
        have hj' : 259 - (s.seq.i.toNat + 1) = 0 := by omega
        rw [hj, List.take_zero] at hfirst ⊢
        rw [hj', List.take_zero] at hthen
        exact storesAt_nil_trans hfirst hthen
    · rw [ht.line, hu.toCourse.arrivals_add, hfifo, hu.line, hf, List.drop_append_of_le_length hrest,
        List.drop_succ_cons, List.append_assoc]
      rfl

/-- The sample and all pops (rules R193, R213, R214): `got` is what SNAPSHOT reads. -/
theorem Runs.snapshot_run {i : Instr} {s : State} (h : Runs i s) (hp : s.phase = .snap) (hs : s.seq.snap = none)
    (h1 : 1 ≤ s.params.popCycles) {got : List Byte} (hgot : got = s.line.fifo.take 0xFFFF) (hf : got ≠ [])
    (hr : s.noReset (1 + got.length * s.params.popCycles)) :
    ∃ t, Course (1 + got.length * s.params.popCycles) s t ∧ t.phase = .parse ∧ t.rxn = BitVec.ofNat 16 got.length ∧
      storesAt s t 0x600 (got.take 259) ∧ t.seq.dly = 0 ∧
      t.line = { fifo := s.line.fifo.drop 0xFFFF ++ s.arrivals (1 + got.length * s.params.popCycles)
                 txlog := s.line.txlog } := by
  have hlen : got.length = min s.line.fifo.length 0xFFFF := by rw [hgot, List.length_take, Nat.min_comm]
  have hne : s.line.fifo ≠ [] := fun he => hf (by rw [hgot, he, List.take_nil])
  have hpos := List.length_pos_iff.mpr hf
  obtain ⟨r, hrlen⟩ : ∃ r, got.length = r + 1 := ⟨got.length - 1, by omega⟩
  obtain ⟨c, d, o, rd, hfr⟩ := State.front_busy h.busy
  have he := (snapshotSamplesTheCountOnce i s.front (by rw [hfr]; exact hp) (by rw [hfr]; exact hs)).1 h.channel
    (by rw [hfr]; exact hne)
  have hc := h.course (State.noReset_le hr (Nat.le_add_right _ _)) he (by rw [hfr]; exact h.busy)
  have hline := h.line he
  generalize hu : State.endCycle _ = u at hc hline
  have huseq : u.seq = { s.seq with snap := some (BitVec.ofNat 16 got.length), i := 0, dly := 0 } := by
    rw [← hu, hlen, hfr]
    rfl
  have hmem : u.mem = s.mem := by rw [← hu, hfr]; rfl
  have hphase : u.phase = .snap := by rw [← hu, hfr]; exact hp
  have hufifo : u.line = { fifo := s.line.fifo ++ s.arrivals 1, txlog := s.line.txlog } := by rw [hline, hfr]
  have hcount : (BitVec.ofNat 16 got.length).toNat = got.length := by
    rw [BitVec.toNat_ofNat, Nat.mod_eq_of_lt (by omega)]
  obtain ⟨t, ht, htp, hrxn⟩ := Runs.pops_run (n := BitVec.ofNat 16 got.length) r (h.of_course hc) hphase
    (by rw [huseq]) (by rw [huseq]) (by rw [huseq, hcount, hrlen]; exact Nat.zero_add _)
    (by rw [hufifo, List.length_append]; omega) (by rw [hc.params]; exact h1)
    (by rw [hc.params, ← hrlen]; exact hc.noReset hr)
  rw [hc.params, ← hrlen] at ht
  have hle : got.length ≤ s.line.fifo.length := by omega
  have htake : s.line.fifo.take got.length = got := by rw [hlen, hgot, Nat.min_comm, ← List.take_take, List.take_length]
  have hdrop : s.line.fifo.drop got.length = s.line.fifo.drop 0xFFFF := by
    rcases Nat.le_total s.line.fifo.length 0xFFFF with hle | hge
    · rw [hlen, Nat.min_eq_left hle, List.drop_length, List.drop_of_length_le hle]
    · rw [hlen, Nat.min_eq_right hge]
  refine ⟨t, hc.trans ht.toCourse, htp, hrxn, ?_, ht.dly, ?_⟩
  · have hstore := ht.stores
    rw [huseq, hufifo, List.take_append_of_le_length hle, htake] at hstore
    intro a
    rw [hstore, hmem]
    rfl
  · rw [ht.line, hufifo, hc.arrivals_add, List.drop_append_of_le_length hle, hdrop, List.append_assoc]

/-- Settles O35: the sample counts what SNAPSHOT then reads. -/
theorem snapshotReadsExactlyTheSampledBytes : Obligations.SnapshotReadsExactlyTheSampledBytes := by
  intro s i hb hp hs hd hch h1 hf got total hr
  have hgot : got ≠ [] := fun he => hf ((List.take_eq_nil_iff.mp he).resolve_left (by decide))
  obtain ⟨t, hc, htp, hrxn, hstore, -, hline⟩ := Runs.snapshot_run ⟨hb, hd, hch⟩ hp hs h1 rfl hgot hr
  exact ⟨t, hc.run, hc.busy, htp, hrxn, hstore, by rw [hline], by rw [hline], hc.rc⟩

/-! ## The timeout of REASSEMBLE -/

/-- No end of a reception is in REASM. -/
theorem endOf_phase_ne_reasm (i : Instr) (r : Reply) (s : State) : (endOf i r s).phase ≠ .reasm := by
  by_cases hi : i = .scan
  · subst hi
    rw [endOf, State.scanReply_eq, State.scanNext]
    split
    · exact fun h => by cases h
    · exact fun h => by cases h
  · rw [(endOf_ends hi r s).1]
    decide

theorem endReception_phase_ne_reasm (i : Instr) (n : Half) (s : State) : (s.endReception n (endOf i)).phase ≠ .reasm := by
  by_cases h0 : n = 0
  · rw [h0, State.endReception_zero]
    exact endOf_phase_ne_reasm i _ _
  · rw [State.endReception_pos _ h0]
    exact fun h => by cases h

/-- A cycle of REASM leaves it, or T counts on towards TIMEOUT (rules R218, R220). -/
theorem Exchange.reasm_progress {i : Instr} {s t : State} (h : Exchange (endOf i) s t) (hp : s.phase = .reasm) :
    t.phase ≠ .reasm ∨
      (t.phase = .reasm ∧ t.stat = s.stat ∧ s.seq.t.toNat < s.regs.timeout.toNat ∧ t.seq.t = s.seq.t + 1) := by
  cases h with
  | flushWait hp' | flush hp' | txEmpty hp' | txStall hp' | txNext hp' | txLast hp' => rw [hp] at hp'; cases hp'
  | settleWait hp' | settleLast hp' | sample hp' | sampleNone hp' => rw [hp] at hp'; cases hp'
  | popWait _ hp' | popNext _ _ _ hp' | popLast _ _ _ hp' | parseWait hp' | parse hp' => rw [hp] at hp'; cases hp'
  | timeout => exact .inl (endReception_phase_ne_reasm i _ s)
  | reasmWait _ ht => exact .inr ⟨hp, rfl, ht, rfl⟩
  | reasmMore _ _ _ ht => exact .inr ⟨hp, rfl, ht, rfl⟩
  | reasmWhole => exact .inl (endReception_phase_ne_reasm i _ _)

/-- One cycle of REASM. -/
theorem Runs.reasm_step {i : Instr} {s : State} (h : Runs i s) (hp : s.phase = .reasm) (hr : s.noReset 1) :
    ∃ t, runN 1 s = .next t ∧ (t.phase ≠ .reasm ∨
      (t.phase = .reasm ∧ Course 1 s t ∧ s.seq.t.toNat < s.regs.timeout.toNat ∧ t.seq.t = s.seq.t + 1)) := by
  obtain ⟨c, d, o, r, hf⟩ := State.front_busy h.busy
  have hp' : s.front.phase = .reasm := by rw [hf]; exact hp
  have hx := Exchange.of_reasmCycle (fin := endOf i) hp'
  have he := exec_of_exchange h.channel (by rw [hp']; rfl) hx
  refine ⟨_, h.step hr he, (hx.reasm_progress hp').imp id ?_⟩
  rintro ⟨hphase, hstat, hlt, ht⟩
  rw [hf] at hstat hlt ht
  exact ⟨hphase, h.course hr he (by rw [hf, hstat]; exact h.busy), hlt, by rw [State.endCycle_seq, hf]; exact ht⟩

/-- With `d` cycles to the timeout REASM is over after at most `d + 1`. -/
theorem Runs.reasm_run {i : Instr} (d : Nat) : ∀ {s : State}, Runs i s → s.phase = .reasm →
    s.regs.timeout.toNat ≤ s.seq.t.toNat + d → s.noReset (d + 1) →
    ∃ k ≤ d + 1, ∃ t, runN k s = .next t ∧ t.phase ≠ .reasm := by
  induction d with
  | zero =>
    intro s h hp ht hr
    obtain ⟨t, hrun, hleft | ⟨-, -, hlt, -⟩⟩ := h.reasm_step hp hr
    · exact ⟨1, le_rfl, t, hrun, hleft⟩
    · exact absurd hlt (by omega)
  | succ d ih =>
    intro s h hp ht hr
    obtain ⟨u, hrun, hleft | ⟨hup, hc, hlt, hnext⟩⟩ := h.reasm_step hp (State.noReset_le hr (by omega))
    · exact ⟨1, by omega, u, hrun, hleft⟩
    · have hT := s.regs.timeout.isLt
      have hcount : u.seq.t.toNat = s.seq.t.toNat + 1 := by
        rw [hnext]
        bv_omega
      have hr' : s.noReset (1 + (d + 1)) := State.noReset_le hr (by omega)
      obtain ⟨k, hk, t, hthen, hleft⟩ := ih (h.of_course hc) hup (by rw [hc.regs]; omega) (hc.noReset hr')
      exact ⟨1 + k, by omega, t, (runN_add hc.run).trans hthen, hleft⟩

/-- Settles O37: at T = 0 the timeout is TIMEOUT cycles away. -/
theorem reassemblyEndsByItsTimeout : Obligations.ReassemblyEndsByItsTimeout := by
  intro s i hb hp ht hd hch hr
  exact Runs.reasm_run s.regs.timeout.toNat ⟨hb, hd, hch⟩ hp (Nat.le_add_left _ _) hr

end Sys2Proof.Machine

/-! PROOF. One whole PING in SNAPSHOT mode (rules R191, R193, R196, R212, R213, R216, R233, R299): launch, flush, write, settle wait,
snapshot and parse, one after the other. -/

namespace Sys2Proof.Machine

/-! ## What arrives between two cycles -/

/-- The bytes that arrive from cycle `m` on, before cycle `n`. -/
def State.arrivalsFrom (s : State) (m n : Nat) : List Byte := (s.arrivals n).drop (s.arrivals m).length

theorem Course.arrivalsFrom {b : Nat} {s t : State} (h : Course b s t) (m n : Nat) :
    s.arrivalsFrom (b + m) (b + n) = t.arrivalsFrom m n := by
  rw [State.arrivalsFrom, State.arrivalsFrom, h.arrivals_add, h.arrivals_add, List.length_append, List.drop_append,
    Nat.add_sub_cancel_left, List.drop_of_length_le (Nat.le_add_right _ _), List.nil_append]

theorem State.arrivals_length_mono (s : State) {m n : Nat} (h : m ≤ n) : (s.arrivals m).length ≤ (s.arrivals n).length := by
  obtain ⟨k, rfl⟩ := Nat.exists_eq_add_of_le h
  rw [State.arrivals_add (t := { s with script := s.script.drop m }) m k rfl, List.length_append]
  exact Nat.le_add_right _ _

theorem Course.arrivalsFrom_add {m n : Nat} {s t : State} (h : Course n s t) (hm : m ≤ n) (k : Nat) :
    s.arrivalsFrom m (n + k) = s.arrivalsFrom m n ++ t.arrivals k := by
  rw [State.arrivalsFrom, State.arrivalsFrom, h.arrivals_add, List.drop_append_of_le_length (s.arrivals_length_mono hm)]

/-- What arrives in a cycle is what arrives from it to the next. -/
theorem Course.arrivalsFrom_one {m : Nat} {s t : State} (h : Course m s t) : s.arrivalsFrom m (m + 1) = t.arrivals 1 := by
  rw [State.arrivalsFrom, h.arrivals_add, List.drop_left]

/-! ## Launch and flush -/

/-- PING's build step on an open channel (rules R199, R230, R233). -/
theorem Runs.ping_launch {s : State} (h : Runs .ping s) (hp : s.phase = .localCmd) (hd : s.seq.dly = 0)
    (ho : s.stat.opened = true) (hid : s.regs.id ≠ 0xFF) (h1 : 1 ≤ s.params.buildCycles)
    (hr : s.noReset s.params.buildCycles) :
    ∃ t, Course s.params.buildCycles s t ∧ t.phase = .flush ∧ t.seq.dly = 0 ∧ t.res.txn = 6 ∧
      storesAt s t 0x400 (frameLayout s.regs.id [0x01]) ∧
      t.line = { fifo := s.line.fifo ++ s.arrivals s.params.buildCycles, txlog := s.line.txlog } := by
  obtain ⟨m, hm⟩ : ∃ m, s.params.buildCycles = m + 1 := ⟨s.params.buildCycles - 1, by omega⟩
  have hsteps : s.stepCycles = m + 1 := by rw [State.stepCycles, hp, hm]
  rw [hm] at hr
  obtain ⟨u, hu⟩ := h.wait_all hd hsteps (State.noReset_le hr (Nat.le_succ m))
  have hrun := h.of_course hu.toCourse
  obtain ⟨c, d, o, r, hf⟩ := State.front_busy hu.busy
  have hbuild : u.front.atBuildEnd := by
    rw [hf]
    refine ⟨hu.phase.trans hp, ?_⟩
    change u.params.buildCycles ≤ u.seq.dly + 1
    rw [hu.params, hu.seq, hm]
  have hopen : u.front.stat.opened = true := by
    rw [hf]
    exact hu.opened.trans ho
  have hregs : u.front.regs = s.regs := by
    rw [hf]
    exact hu.regs
  obtain ⟨v, he, hstore, hv⟩ := (pingClearsPingokAndSendsPing u.front hbuild).2 (hregs ▸ hid)
  rw [if_pos hopen, hf] at hv
  have hc := hrun.course (hu.toCourse.noReset hr) he (by rw [hv]; exact hu.busy)
  rw [hm]
  refine ⟨v.endCycle, hu.toCourse.trans hc, by rw [State.endCycle_phase, hv]; rfl, by rw [State.endCycle_seq, hv]; rfl,
    by rw [State.endCycle_res, hv], fun a => ?_, ?_⟩
  · have hread := hstore a
    rw [hregs, hf] at hread
    change Mem.read v.mem a = if _ then _ else Mem.read u.mem a at hread
    rw [hu.mem] at hread
    exact hread
  · have hvline : v.line = u.line := by
      rw [hv]
      rfl
    rw [hrun.line he, hvline, hu.line, hu.toCourse.arrivals_add, List.append_assoc]

/-- The whole flush: what arrives from its last cycle on is in the FIFO (rule R191; log entry 18). -/
theorem Runs.flush_all {i : Instr} {s : State} (h : Runs i s) (hp : s.phase = .flush) (hd : s.seq.dly = 0)
    (h1 : 1 ≤ s.params.flushCycles) (hr : s.noReset s.params.flushCycles) :
    ∃ t, Course s.params.flushCycles s t ∧ t.phase = .tx ∧ t.seq.i = 0 ∧ t.mem = s.mem ∧ t.res = s.res ∧
      t.line = { fifo := s.arrivalsFrom (s.params.flushCycles - 1) s.params.flushCycles, txlog := s.line.txlog } := by
  obtain ⟨m, hm⟩ : ∃ m, s.params.flushCycles = m + 1 := ⟨s.params.flushCycles - 1, by omega⟩
  have hsteps : s.stepCycles = m + 1 := by rw [State.stepCycles, hp, hm]
  rw [hm] at hr
  obtain ⟨u, hu⟩ := h.wait_all hd hsteps (State.noReset_le hr (Nat.le_succ m))
  have hrun := h.of_course hu.toCourse
  obtain ⟨c, d, o, r, hf⟩ := State.front_busy hu.busy
  have hlast : u.front.params.flushCycles ≤ u.front.seq.dly + 1 := by
    rw [(State.front_unit hu.busy).1, (State.front_unit hu.busy).2, hu.params, hu.seq, hm]
  have he := flushEmptiesTheReceiveFifo i u.front h.channel (by rw [hf]; exact hu.phase.trans hp) hlast
  have hc := hrun.course (hu.toCourse.noReset hr) he (by rw [hf]; exact hu.busy)
  rw [hm, Nat.add_sub_cancel, hu.toCourse.arrivalsFrom_one]
  refine ⟨_, hu.toCourse.trans hc, rfl, rfl, by rw [hf]; exact hu.mem, by rw [hf]; exact hu.res, ?_⟩
  rw [hrun.line he, hf]
  refine (Line.mk.injEq ..).mpr ⟨rfl, ?_⟩
  change u.line.txlog = _
  rw [hu.line]

/-! ## Write and settle wait -/

/-- From the first byte of a frame to the count sample of SNAPSHOT (rules R196, R197, R212). -/
theorem Runs.write_to_snap {i : Instr} {s : State} {f : List Byte} (h : Runs i s) (hp : s.phase = .tx) (hi : s.seq.i = 0)
    (hmode : s.seq.rxmode = false) (hf : 1 ≤ f.length) (htxn : s.res.txn.toNat = f.length)
    (hmem : ∀ k < f.length, Mem.read s.mem (0x400 + k) = f[k]?) (hr : s.noReset (f.length + s.regs.settle.toNat))
    (hready : s.txReadyFor f.length) :
    ∃ t, Course (f.length + s.regs.settle.toNat) s t ∧ t.phase = .snap ∧ t.seq.snap = none ∧
      t.line = { fifo := s.line.fifo ++ s.arrivals (f.length + s.regs.settle.toNat), txlog := s.line.txlog ++ f } := by
  obtain ⟨n, hn⟩ : ∃ n, f.length = n + 1 := ⟨f.length - 1, by omega⟩
  have h0 : s.seq.i.toNat = 0 := by rw [hi]; rfl
  obtain ⟨u, hu⟩ := h.write_run n hp (by omega) (State.noReset_le hr (by omega)) (hn ▸ hready) fun k hk => by
    rw [hmem k (htxn ▸ hk), List.getElem?_eq_getElem (htxn ▸ hk)]
    rfl
  rw [← hn] at hu
  have hbytes : (List.range' s.seq.i.toNat f.length).map s.txByte = f := by
    refine List.ext_getElem? fun k => ?_
    rw [h0, List.getElem?_map, ← List.range_eq_range']
    by_cases hk : k < f.length
    · rw [List.getElem?_range hk, Option.map_some, State.txByte, hmem k hk, List.getElem?_eq_getElem hk]
      rfl
    · rw [List.getElem?_eq_none (by rw [List.length_range]; omega), List.getElem?_eq_none (by omega)]
      rfl
  have huline := hu.line
  rw [hbytes] at huline
  have huphase : u.phase = if s.regs.settle = 0 then .snap else .settle := by
    rw [hu.phase, State.receptionPhase, hmode]
    rfl
  have husnap : u.seq.snap = none := by rw [hu.seq]
  by_cases hs : s.regs.settle = 0
  · rw [if_pos hs] at huphase
    have hs0 : s.regs.settle.toNat = 0 := by rw [hs]; rfl
    rw [hs0, Nat.add_zero]
    exact ⟨u, hu.toCourse, huphase, husnap, huline⟩
  · rw [if_neg hs] at huphase
    have hpos : 1 ≤ s.regs.settle.toNat := by
      by_contra h0
      exact hs (BitVec.eq_of_toNat_eq (by simpa using h0))
    obtain ⟨t, hc, htp, -, -, hsnap, hline⟩ := (h.of_course hu.toCourse).settle_all huphase (by rw [hu.seq])
      (by rw [hu.regs]; exact hpos) (by rw [hu.regs]; exact hu.toCourse.noReset hr)
    rw [hu.regs] at hc hline
    refine ⟨t, hu.toCourse.trans hc, htp, hsnap.trans husnap, ?_⟩
    rw [hline, huline, hu.toCourse.arrivals_add, List.append_assoc]

/-! ## Parse -/

/-- What the status parse reads where RXB holds the first bytes of a reply (rules R97, R217). -/
theorem State.parseStatus_rxFrame {s : State} {reply : List Byte} (hn : s.rxn.toNat = reply.length)
    (hmem : ∀ k < min reply.length 259, Mem.read s.mem (0x600 + k) = reply[k]?) :
    parseStatus s.rxn.toNat (s.rxFrame s.rxn.toNat) = parseStatus reply.length reply := by
  have hframe : s.rxFrame reply.length = reply.take 259 := by
    refine List.ext_getElem? fun k => ?_
    rw [State.rxFrame, State.bytes_getElem?, List.getElem?_take]
    change (if k < min reply.length 259 then some (s.peek (0x600 + k) k) else none) = _
    by_cases hk : k < min reply.length 259
    · obtain ⟨h1, h2⟩ := lt_min_iff.mp hk
      have hread := hmem k hk
      rw [List.getElem?_eq_getElem h1] at hread
      rw [if_pos hk, if_pos h2, List.getElem?_eq_getElem h1, State.peek_of_read hread]
    · rw [if_neg hk]
      split
      · rw [List.getElem?_eq_none (by omega)]
      · rfl
  rw [hn, hframe]
  exact decodeCounted_congr (decodeCounted_take reply)

/-- The end of PING (rules R215, R216, R233). -/
theorem endPing_ends {r : Reply} (hr : r.Short) (s : State) :
    (State.endPing r s).rc = r.code ∧ (State.endPing r s).phase = .idle ∧
      (State.endPing r s).stat = { s.stat with busy := false, done := true, pingok := r.matchesId s.regs.id } ∧
      (State.endPing r s).rxn = s.rxn ∧ (State.endPing r s).line = s.line ∧
      ∀ a, 0x300 ≤ a → Mem.read (State.endPing r s).mem a = Mem.read s.mem a := by
  cases r with
  | noReply => exact ⟨rfl, rfl, rfl, rfl, rfl, fun _ _ => rfl⟩
  | malformed c =>
    refine ⟨rfl, rfl, rfl, rfl, rfl, fun a ha => ?_⟩
    exact (holdsQb_forgetQb (s.setPingok false) a).trans (if_neg (by rw [Config.qbBase]; omega))
  | status st =>
    refine ⟨rfl, rfl, rfl, rfl, rfl, fun a ha => ?_⟩
    exact (holdsQb_putQb (s := (s.setPingok _).setRes _) (hr st rfl) a).trans (if_neg (by rw [Config.qbBase]; omega))

/-- PING's whole status parse of a reply in RXB (rules R216, R233). -/
theorem Runs.ping_parse {s : State} {reply : List Byte} (h : Runs .ping s) (hp : s.phase = .parse) (hd : s.seq.dly = 0)
    (h1 : 1 ≤ s.params.parseCycles) (hr : s.noReset s.params.parseCycles) (hn : s.rxn.toNat = reply.length)
    (hmem : ∀ k < min reply.length 259, Mem.read s.mem (0x600 + k) = reply[k]?) :
    ∃ t, runN s.params.parseCycles s = .next t ∧ t.stat.busy = false ∧ t.stat.done = true ∧ t.phase = .idle ∧
      t.line.txlog = s.line.txlog ∧ t.rxn = s.rxn ∧ t.rc = (parseStatus reply.length reply).code ∧
      t.stat.pingok = (parseStatus reply.length reply).matchesId s.regs.id ∧
      ∀ k < min reply.length 259, Mem.read t.mem (0x600 + k) = reply[k]? := by
  obtain ⟨m, hm⟩ : ∃ m, s.params.parseCycles = m + 1 := ⟨s.params.parseCycles - 1, by omega⟩
  have hsteps : s.stepCycles = m + 1 := by rw [State.stepCycles, hp, hm]
  rw [hm] at hr
  obtain ⟨u, hu⟩ := h.wait_all hd hsteps (State.noReset_le hr (Nat.le_succ m))
  have hrun := h.of_course hu.toCourse
  obtain ⟨c, d, o, r, hf⟩ := State.front_busy hu.busy
  have hlast : u.front.atParseEnd := by
    refine ⟨by rw [hf]; exact hu.phase.trans hp, ?_⟩
    rw [(State.front_unit hu.busy).1, (State.front_unit hu.busy).2, hu.params, hu.seq, hm]
  have hregs : u.front.regs = s.regs := by rw [hf]; exact hu.regs
  have hrxn : u.front.rxn = s.rxn := by rw [hf]; exact hu.rxn
  have hread : u.front.mem = s.mem := by rw [hf]; exact hu.mem
  have htxlog : u.front.line.txlog = s.line.txlog := by
    rw [hf]
    change u.line.txlog = _
    rw [hu.line]
  have hreply := State.parseStatus_rxFrame (s := u.front) (hrxn ▸ hn) (hread ▸ hmem)
  have hshort := Reply.short_parse u.front u.front.rxn.toNat
  rw [hreply] at hshort
  have he := exec_parse h.channel hlast hreply
  obtain ⟨hrc, hphase, hstat, hkeep, hline, hmemkeep⟩ := endPing_ends hshort
    (u.front.ready.setCsu (csuAfterDecode u.front.rxn.toNat (u.front.rxFrame u.front.rxn.toNat) u.front.csu))
  have hstep := hrun.step (hu.toCourse.noReset hr) he
  rw [hm]
  refine ⟨_, (runN_add hu.run).trans hstep, ?_, ?_, hphase, ?_, hkeep.trans hrxn, hrc, ?_, fun k hk => ?_⟩
  · exact (congrArg Stat.busy hstat).trans rfl
  · exact (congrArg Stat.done hstat).trans rfl
  · exact (congrArg Line.txlog hline).trans htxlog
  · rw [← hregs]
    exact congrArg Stat.pingok hstat
  · rw [← hmem k hk, ← hread]
    exact hmemkeep _ (by omega)

/-! ## The whole command -/

/-- Settles O43: launch, flush, write and settle wait, snapshot, and parse. -/
theorem pingExchangesOneFrame : Obligations.PingExchangesOneFrame := by
  intro s hb hp hd hcmd hmode ho hid hcycles p pre sample reply n total hreply hr hready
  obtain ⟨-, hbuild, hflush, hpop, hparse, -⟩ := hcycles
  have h : Runs .ping s := by
    refine ⟨hb, ?_, by decide⟩
    rw [State.fetch, hcmd, decode_pair_of_ne _ (by decide)]
    rfl
  have hframe : (frameLayout s.regs.id [0x01]).length = 6 := frameLayout_length ..
  have htotal : total = s.params.buildCycles + (s.params.flushCycles + (6 + s.regs.settle.toNat +
      (1 + reply.length * s.params.popCycles + s.params.parseCycles))) := by
    change s.params.buildCycles + s.params.flushCycles + 6 + s.regs.settle.toNat + 1 +
      reply.length * s.params.popCycles + s.params.parseCycles = _
    omega
  rw [htotal] at hr hready ⊢
  -- the launch
  obtain ⟨s1, c1, hp1, hd1, htxn1, hstore1, hline1⟩ := h.ping_launch hp hd ho hid hbuild (State.noReset_le hr (by omega))
  have h1 := h.of_course c1
  have hr1 := c1.noReset hr
  have hready1 := c1.txReadyFor hready
  -- the flush
  obtain ⟨s2, c2, hp2, hi2, hmem2, hres2, hline2⟩ := h1.flush_all hp1 hd1 (by rw [c1.params]; exact hflush)
    (by rw [c1.params]; exact State.noReset_le hr1 (by omega))
  rw [c1.params] at c2 hline2
  have h2 := h1.of_course c2
  have hr2 := c2.noReset hr1
  have hready2 := c2.txReadyFor hready1
  have hregs2 : s2.regs = s.regs := c2.regs.trans c1.regs
  -- the write and the settle wait
  obtain ⟨s3, c3, hp3, hsnap3, hline3⟩ := h2.write_to_snap (f := frameLayout s.regs.id [0x01]) hp2 hi2
    (by rw [c2.rxmode, c1.rxmode, hmode]) (by omega) (by rw [hres2, htxn1, hframe]; rfl)
    (fun k hk => by rw [hmem2, hstore1, if_pos (by omega), Nat.add_sub_cancel_left])
    (by rw [hframe, hregs2]; exact State.noReset_le hr2 (by omega))
    (fun k hk => hready2 k (by omega))
  rw [hframe, hregs2] at c3 hline3
  have h3 := h2.of_course c3
  have hr3 := c3.noReset hr2
  have hparams3 : s3.params = s.params := c3.params.trans (c2.params.trans c1.params)
  have hpre : pre - 1 = s.params.buildCycles + (s.params.flushCycles - 1) := by
    change s.params.buildCycles + s.params.flushCycles - 1 = _
    omega
  have hsample : sample = s.params.buildCycles + (s.params.flushCycles + (6 + s.regs.settle.toNat)) := by
    change s.params.buildCycles + s.params.flushCycles + 6 + s.regs.settle.toNat = _
    omega
  have hfifo : s3.line.fifo = s.arrivalsFrom (pre - 1) sample := by
    rw [hpre, hsample, c1.arrivalsFrom, c2.arrivalsFrom_add (Nat.sub_le _ _), hline3, hline2]
  have hgot : reply = s3.line.fifo.take 0xFFFF := congrArg (List.take 0xFFFF) hfifo.symm
  -- the snapshot
  obtain ⟨s4, c4, hp4, hrxn4, hstore4, hd4, hline4⟩ := h3.snapshot_run hp3 hsnap3 (by rw [hparams3]; exact hpop) hgot hreply
    (by rw [hparams3]; exact State.noReset_le hr3 (by omega))
  rw [hparams3] at c4
  have h4 := h3.of_course c4
  have hlen : reply.length ≤ 0xFFFF := List.length_take_le _ _
  have hrxn : s4.rxn.toNat = reply.length := by
    rw [hrxn4, BitVec.toNat_ofNat]
    omega
  -- the parse
  have hparams4 : s4.params = s.params := c4.params.trans hparams3
  have hregs4 : s4.regs = s.regs := c4.regs.trans (c3.regs.trans hregs2)
  obtain ⟨t, hrun, hbusy, hdone, hidle, htxlog, hrxn', hrc, hpingok, hread⟩ := h4.ping_parse hp4 hd4
    (by rw [hparams4]; exact hparse) (by rw [hparams4]; exact c4.noReset hr3) hrxn fun k hk => by
      obtain ⟨hk1, hk2⟩ := lt_min_iff.mp hk
      rw [hstore4, if_pos (by rw [List.length_take]; omega), Nat.add_sub_cancel_left, List.getElem?_take_of_lt hk2]
  rw [hparams4] at hrun
  rw [hregs4] at hpingok
  refine ⟨t, ?_, hbusy, hdone, hidle, ?_, hrxn'.trans hrxn4, hrc, hpingok, hread⟩
  · exact (runN_add c1.run).trans ((runN_add c2.run).trans ((runN_add c3.run).trans ((runN_add c4.run).trans hrun)))
  · rw [htxlog, hline4, hline3, hline2, hline1]

end Sys2Proof.Machine
